-- ==== Sys2Proof/Word.lean ====
section
/-!
DEFINITION. The widths of R10 (spec/00_scope.md): a port has 10 bits, a datum 8, a base port 16. Every value is unsigned (R12).
-/

namespace Sys2Proof

/-- A data byte (R10, R11). -/
abbrev Byte := BitVec 8

/-- A port of the I/O port space, 0x000 to 0x3FF (R10, R60). -/
abbrev Port := BitVec 10

/-- The width of `base_port` (R10, R35). -/
abbrev Word16 := BitVec 16

end Sys2Proof
end

