-- ==== Sys2Proof/Config.lean ====
section
/-!
DEFINITION. The configuration record of R7 (spec/00_scope.md), the constants of R8, the example configuration EX of
spec/95_test_vectors.md section 1, and the free values. Nothing here changes as the machine runs.
-/

namespace Sys2Proof

/-- `P_QUEUE_OVERFLOW` (R7, D22): what a backend's full queue does with a further write. It belongs to the backend model. -/
inductive OverflowPolicy where
  | dropNewest
  | overwriteOldest
deriving DecidableEq, Repr

/-- One offset of the backend region table (R43): its membership is being listed, `fast` is `P_WRITE_FAST`, `sentinel` is
`P_SENTINEL`. -/
structure RegionEntry where
  off : Nat
  fast : Bool
  sentinel : Option Byte
deriving DecidableEq, Repr

/-- The configuration record of R7: fixed for the life of a firmware image, never written by a transaction. The three tables
`P_REGION`, `P_WRITE_FAST` and `P_SENTINEL` are one list of entries, and an offset listed twice means its first entry
(DESIGN CHOICE, safe: log entry 14). -/
structure Config where
  /-- `P_CONTROL_PORT` -/
  controlPort : Port
  /-- `P_DATA_LOW_PORT` -/
  dataLowPort : Port
  /-- `P_DATA_HIGH_PORT` -/
  dataHighPort : Port
  /-- `P_DEFAULT_BASE_PORT` -/
  defaultBasePort : Word16
  /-- `P_REGION`, `P_WRITE_FAST`, `P_SENTINEL` -/
  region : List RegionEntry
  /-- `P_BACKEND_TYPE` -/
  backendType : Byte
  /-- `P_PROTOCOL_VERSION` -/
  protocolVersion : Byte
  /-- `P_ID_STRING`, without its terminator -/
  idString : List Byte
  /-- `P_TUNING_REGS` -/
  tuningRegs : List Byte
  /-- `P_STAGING_RESET`, a draw fixed at reset (D7) -/
  stagingReset : Byte
  /-- `P_QUEUE_OVERFLOW` -/
  queueOverflow : OverflowPolicy
deriving DecidableEq, Repr

/-- The magic byte of register 0x00 (R8, R170). -/
abbrev magicByte : Byte := 0xDD
/-- The unlock byte, written to the control port (R8, R151). -/
abbrev unlockByte : Byte := 0xCC
/-- Register MAGIC (R41). -/
abbrev regMagic : Byte := 0x00
/-- Register PROTOCOL_VERSION (R41). -/
abbrev regVersion : Byte := 0x01
/-- Register ID_STRING (R41). -/
abbrev regString : Byte := 0x02
/-- Register BACKEND_TYPE (R41). -/
abbrev regType : Byte := 0x03
/-- Register BASE_PORT (R41). -/
abbrev regBase : Byte := 0x04
/-- Register FIRMWARE_UPDATE (R8, R41). -/
abbrev regFirmware : Byte := 0xFF
/-- The terminator of the identity string (R8, R44). -/
abbrev stringTerminator : Byte := 0x00

/-- The region table of EX (spec/95 section 1): offsets 0 to 15, fast below 8, sentinel 0xAA at offset 6. -/
def Config.exRegion : List RegionEntry :=
  (List.range 16).map fun off =>
    { off := off, fast := decide (off < 8), sentinel := if off = 6 then some 0xAA else none }

/-- The example configuration EX of spec/95_test_vectors.md section 1, an illustration and no real backend's configuration.
`stagingReset` and `queueOverflow`, which EX leaves open, are DESIGN CHOICE (unsafe for a claim about `State.reset` alone: log
entries 2 and 3). The port numbers are the defaults of D1, from general knowledge. -/
def Config.ex : Config where
  controlPort := 0x1D0
  dataLowPort := 0x1D1
  dataHighPort := 0x1D2
  defaultBasePort := 0x0240
  region := Config.exRegion
  backendType := 0x00
  protocolVersion := 0x01
  idString := [0x41, 0x42]
  tuningRegs := [0x10]
  stagingReset := 0x00
  queueOverflow := .dropNewest

/-- FREE VALUE (R15, D14; log entry 4). The byte of the `n`-th draw: an answer of `BackendRead`, `BackendTuneRead`,
`UpdaterStatus` or `Unspecified`. No body: nothing can be proved of it. -/
opaque Config.freeByte : Nat → Byte

/-- FREE VALUE (R212, D17; log entry 5). Whether the write queue is served first when both queues hold an event. -/
opaque Config.freeWriteFirst : Nat → Bool

/-- FREE VALUE (R77, D35; log entry 16). Which of its candidates a read of the base port by Context B
returns. -/
opaque Config.freeIndex : Nat → Nat

end Sys2Proof
end

