-- ==== Sys2Proof/Syntax.lean ====
section
/-!
DEFINITION. The syntax: bus transactions (R90), responses (R95), the 38 instructions of spec/opcode_table.json (R107), the
second-level operation codes of R101, and the assembler forms of R106.
-/

namespace Sys2Proof

/-- A write-direction event (R90, R220): `{port, data}`. -/
structure IowEvent where
  port : Port
  data : Byte
deriving DecidableEq, Repr

/-- A bus transaction (R90): a write carries a data byte, a read does not (R92). -/
inductive Transaction where
  | iow (port : Port) (data : Byte)
  | ior (port : Port)
deriving DecidableEq, Repr

/-- The three response forms of R95. -/
inductive Response where
  | hold
  | done
  | doneData (b : Byte)
deriving DecidableEq, Repr

/-- The second-level operation of a select, by the written index (R101, R153 to R160). -/
inductive SelectOp where
  | magic | version | string | type | base | firmware | tuning | unrecognized
deriving DecidableEq, Repr

/-- The second-level operation of a data-port-low write, by `selected_register` (R101). -/
inductive WriteLowOp where
  | base | ignored
deriving DecidableEq, Repr

/-- The second-level operation of a data-port-high write, by `selected_register` (R101). -/
inductive WriteHighOp where
  | base | firmware | tuning | ignored | unrecognized
deriving DecidableEq, Repr

/-- The second-level operation of a data-port-high read, by `selected_register` (R101). -/
inductive ReadHighOp where
  | magic | version | string | type | base | firmware | tuning | unrecognized
deriving DecidableEq, Repr

/-- The second-level operation of a data-port-low read, by `selected_register` (R101). -/
inductive ReadLowOp where
  | base | other
deriving DecidableEq, Repr

/-- The instructions: one constructor per row of spec/opcode_table.json, with the operands its rule names. The first thirteen
are the transaction classes of R96 and R97, the rest the control-protocol operations of R101, each standing for the whole bus
cycle that carries it (log entry 11). -/
inductive Instr where
  | iowUnlock
  | iowSelect (v : Byte)
  | iowDataLo (v : Byte)
  | iowDataHi (v : Byte)
  | iowBackendFast (off : Nat) (v : Byte)
  | iowBackendSlow (off : Nat) (v : Byte)
  | iowUnmapped (port : Port) (v : Byte)
  | iorCtrl
  | iorDataLo
  | iorDataHi
  | iorBackendSentinel (off : Nat) (sentinel : Byte)
  | iorBackend (off : Nat)
  | iorUnmapped (port : Port)
  | selMagic
  | selVersion
  | selString
  | selType
  | selBase
  | selFw
  | selTuning (r : Byte)
  | selUnrecognized (v : Byte)
  | wrloBase (v : Byte)
  | wrloIgnored (v : Byte)
  | wrhiBase (v : Byte)
  | wrhiFw (v : Byte)
  | wrhiTuning (v : Byte)
  | wrhiIgnored (v : Byte)
  | wrhiUnrecognized (v : Byte)
  | rdhiMagic
  | rdhiVersion
  | rdhiString
  | rdhiType
  | rdhiBase
  | rdhiFw
  | rdhiTuning
  | rdhiUnrecognized
  | rdloBase
  | rdloOther
deriving DecidableEq, Repr

/-- The assembler forms of R106. -/
inductive Asm where
  | out (port : Port) (v : Byte)
  | inp (port : Port)
  | unlock
  | sel (r : Byte)
  | wrlo (v : Byte)
  | wrhi (v : Byte)
  | rdlo
  | rdhi
  | setBase (p : Word16)
  | rdsel
deriving DecidableEq, Repr

end Sys2Proof
end

