-- ==== Sys2Proof/Machine/Operands.lean ====
section
/-!
DEFINITION. Operand forms over the configuration: region membership and offset (R98), the sets of R17, the base-port assembly
(R100) and its halves (R66), the identity string's bytes (R17), and the second-level operation codes (R101).
-/

namespace Sys2Proof

/-- The region table's entry of an offset, if the offset is in `P_REGION` (R43). -/
def Config.entryAt (cfg : Config) (off : Nat) : Option RegionEntry :=
  cfg.region.find? fun e => e.off == off

/-- `off ∈ P_REGION` (R7). -/
def Config.hasOffset (cfg : Config) (off : Nat) : Bool := (cfg.entryAt off).isSome

/-- `P_WRITE_FAST(off)` (R7), false outside `P_REGION`, where no rule asks for it. -/
def Config.writeFast (cfg : Config) (off : Nat) : Bool :=
  match cfg.entryAt off with
  | some e => e.fast
  | none => false

/-- `P_SENTINEL(off)` (R7). -/
def Config.sentinelAt (cfg : Config) (off : Nat) : Option Byte :=
  match cfg.entryAt off with
  | some e => e.sentinel
  | none => none

/-- `offset(port)` where `in_region(port)`, and `none` elsewhere (R98). The port is zero-extended and the arithmetic is on
unbounded naturals, so a port below the base is never in the region (R62). -/
def Config.offset? (cfg : Config) (base : Word16) (port : Port) : Option Nat :=
  if base.toNat ≤ port.toNat then
    if cfg.hasOffset (port.toNat - base.toNat) then some (port.toNat - base.toNat) else none
  else none

/-- `in_region(port)` (R98). -/
def Config.inRegion (cfg : Config) (base : Word16) (port : Port) : Bool := (cfg.offset? base port).isSome

/-- `CTRL_PORTS` (R17). -/
def Config.ctrlPorts (cfg : Config) : List Port := [cfg.controlPort, cfg.dataLowPort, cfg.dataHighPort]

/-- `r ∈ RECOGNIZED` (R17, R102). -/
def Config.recognized (cfg : Config) (r : Byte) : Bool :=
  decide (r ∈ ([0x00, 0x01, 0x02, 0x03, 0x04, 0xFF] : List Byte)) || decide (r ∈ cfg.tuningRegs)

/-- `L`, the length of the identity string (R17). -/
def Config.idLength (cfg : Config) : Nat := cfg.idString.length

/-- `ID(i)` (R17): the `i`-th byte of the identity string, and the terminator at `i = L`. Above `L`, where no run comes, also
0x00 (DESIGN CHOICE, log entry 15). -/
def Config.idByte (cfg : Config) (i : Nat) : Byte := cfg.idString.getD i stringTerminator

/-- `(zext_16(h) << 8) | zext_16(l)` (R12, R100). -/
def assembleBase (h l : Byte) : Word16 := (h.setWidth 16 <<< 8) ||| l.setWidth 16

/-- `p[15:8]` (R66). -/
def highHalf (p : Word16) : Byte := p.extractLsb' 8 8

/-- `p[7:0]` (R66). -/
def lowHalf (p : Word16) : Byte := p.extractLsb' 0 8

/-- The select operation of a written index (R101; R153 to R160). -/
def Config.selectOp (cfg : Config) (v : Byte) : SelectOp :=
  if v = regMagic then .magic
  else if v = regVersion then .version
  else if v = regString then .string
  else if v = regType then .type
  else if v = regBase then .base
  else if v = regFirmware then .firmware
  else if v ∈ cfg.tuningRegs then .tuning
  else .unrecognized

/-- The data-port-low write operation of a selected register (R101). -/
def writeLowOp (sel : Byte) : WriteLowOp := if sel = regBase then .base else .ignored

/-- The data-port-high write operation of a selected register (R101). -/
def Config.writeHighOp (cfg : Config) (sel : Byte) : WriteHighOp :=
  if sel = regBase then .base
  else if sel = regFirmware then .firmware
  else if sel ∈ ([regMagic, regVersion, regString, regType] : List Byte) then .ignored
  else if sel ∈ cfg.tuningRegs then .tuning
  else .unrecognized

/-- The data-port-high read operation of a selected register (R101). -/
def Config.readHighOp (cfg : Config) (sel : Byte) : ReadHighOp :=
  if sel = regMagic then .magic
  else if sel = regVersion then .version
  else if sel = regString then .string
  else if sel = regType then .type
  else if sel = regBase then .base
  else if sel = regFirmware then .firmware
  else if sel ∈ cfg.tuningRegs then .tuning
  else .unrecognized

/-- The data-port-low read operation of a selected register (R101). -/
def readLowOp (sel : Byte) : ReadLowOp := if sel = regBase then .base else .other

end Sys2Proof
end

