-- ==== Sys2Proof/WellFormed.lean ====
section
/-!
DEFINITION. Well-formedness: of a configuration (R7, R9), of an instruction's operands under a configuration (R96, R97, R101),
and the condition column of spec/opcode_table.json, which says in which states the decoder gives a row.
-/

namespace Sys2Proof

/-- The three control ports are pairwise distinct (R9). -/
def Config.portsDistinct (cfg : Config) : Bool :=
  cfg.controlPort != cfg.dataLowPort && cfg.controlPort != cfg.dataHighPort && cfg.dataLowPort != cfg.dataHighPort

/-- `P_TUNING_REGS` avoids the fixed indices and the unlock byte (R9). -/
def Config.tuningDisjoint (cfg : Config) : Bool :=
  ([0x00, 0x01, 0x02, 0x03, 0x04, 0xCC, 0xFF] : List Byte).all fun r => !decide (r ∈ cfg.tuningRegs)

/-- `P_ID_STRING` has no byte 0x00 (R9). -/
def Config.stringOk (cfg : Config) : Bool := !decide (stringTerminator ∈ cfg.idString)

/-- `P_BACKEND_TYPE` is one of the codes 0 to 4 or 0xFF (R9). -/
def Config.typeOk (cfg : Config) : Bool :=
  decide (cfg.backendType ∈ ([0x00, 0x01, 0x02, 0x03, 0x04, 0xFF] : List Byte))

/-- `P_REGION` is non-empty (R7's constraint; DEDUCED, safe: log entry 13). -/
def Config.regionOk (cfg : Config) : Bool := !cfg.region.isEmpty

/-- A configuration that R9 does not refuse and that meets R7's constraints. -/
def Config.wf (cfg : Config) : Bool :=
  cfg.portsDistinct && cfg.tuningDisjoint && cfg.stringOk && cfg.typeOk && cfg.regionOk

/-- Whether a row is a transaction class, decoded at the first level (R96, R97, R107). -/
def Instr.isClass : Instr → Bool
  | .iowUnlock => true
  | .iowSelect _ => true
  | .iowDataLo _ => true
  | .iowDataHi _ => true
  | .iowBackendFast _ _ => true
  | .iowBackendSlow _ _ => true
  | .iowUnmapped _ _ => true
  | .iorCtrl => true
  | .iorDataLo => true
  | .iorDataHi => true
  | .iorBackendSentinel _ _ => true
  | .iorBackend _ => true
  | .iorUnmapped _ => true
  | .selMagic => false
  | .selVersion => false
  | .selString => false
  | .selType => false
  | .selBase => false
  | .selFw => false
  | .selTuning _ => false
  | .selUnrecognized _ => false
  | .wrloBase _ => false
  | .wrloIgnored _ => false
  | .wrhiBase _ => false
  | .wrhiFw _ => false
  | .wrhiTuning _ => false
  | .wrhiIgnored _ => false
  | .wrhiUnrecognized _ => false
  | .rdhiMagic => false
  | .rdhiVersion => false
  | .rdhiString => false
  | .rdhiType => false
  | .rdhiBase => false
  | .rdhiFw => false
  | .rdhiTuning => false
  | .rdhiUnrecognized => false
  | .rdloBase => false
  | .rdloOther => false

/-- The operands of an instruction are ones its row admits under a configuration (R96, R97, R101, R152). -/
def Instr.wf (cfg : Config) : Instr → Bool
  | .iowUnlock => true
  | .iowSelect v => v != unlockByte
  | .iowDataLo _ => true
  | .iowDataHi _ => true
  | .iowBackendFast off _ => cfg.hasOffset off && cfg.writeFast off
  | .iowBackendSlow off _ => cfg.hasOffset off && !cfg.writeFast off
  | .iowUnmapped _ _ => true
  | .iorCtrl => true
  | .iorDataLo => true
  | .iorDataHi => true
  | .iorBackendSentinel off b => cfg.hasOffset off && cfg.sentinelAt off == some b
  | .iorBackend off => cfg.hasOffset off && (cfg.sentinelAt off).isNone
  | .iorUnmapped _ => true
  | .selMagic => true
  | .selVersion => true
  | .selString => true
  | .selType => true
  | .selBase => true
  | .selFw => true
  | .selTuning r => decide (r ∈ cfg.tuningRegs)
  | .selUnrecognized v => !cfg.recognized v && v != unlockByte
  | .wrloBase _ => true
  | .wrloIgnored _ => true
  | .wrhiBase _ => true
  | .wrhiFw _ => true
  | .wrhiTuning _ => true
  | .wrhiIgnored _ => true
  | .wrhiUnrecognized _ => true
  | .rdhiMagic => true
  | .rdhiVersion => true
  | .rdhiString => true
  | .rdhiType => true
  | .rdhiBase => true
  | .rdhiFw => true
  | .rdhiTuning => true
  | .rdhiUnrecognized => true
  | .rdloBase => true
  | .rdloOther => true

/-- A region offset is reached by a port that is no control port (R63, R64). -/
def Config.reachable (cfg : Config) (base : Word16) (off : Nat) : Bool :=
  decide (base.toNat + off < 1024) && !decide (BitVec.ofNat 10 (base.toNat + off) ∈ cfg.ctrlPorts)

/-- A port is in none of the first three classes of R61. -/
def Config.unmapped (cfg : Config) (base : Word16) (port : Port) : Bool :=
  !decide (port ∈ cfg.ctrlPorts) && !cfg.inRegion base port

/-- The condition column of spec/opcode_table.json for the state the decoder reads: `control_active`, `selected_register` and
`base_port`. Together with `Instr.wf` it is the row's whole condition. -/
def Instr.appliesIn (cfg : Config) (active : Bool) (sel : Byte) (base : Word16) : Instr → Bool
  | .iowUnlock => true
  | .iowSelect _ => true
  | .iowDataLo _ => true
  | .iowDataHi _ => true
  | .iowBackendFast off _ => cfg.reachable base off
  | .iowBackendSlow off _ => cfg.reachable base off
  | .iowUnmapped port _ => cfg.unmapped base port
  | .iorCtrl => true
  | .iorDataLo => true
  | .iorDataHi => true
  | .iorBackendSentinel off _ => cfg.reachable base off
  | .iorBackend off => cfg.reachable base off
  | .iorUnmapped port => cfg.unmapped base port
  | .selMagic => active
  | .selVersion => active
  | .selString => active
  | .selType => active
  | .selBase => active
  | .selFw => active
  | .selTuning _ => active
  | .selUnrecognized _ => active
  | .wrloBase _ => active && sel == regBase
  | .wrloIgnored _ => active && sel != regBase
  | .wrhiBase _ => active && sel == regBase
  | .wrhiFw _ => active && sel == regFirmware
  | .wrhiTuning _ => active && decide (sel ∈ cfg.tuningRegs)
  | .wrhiIgnored _ => active && decide (sel ∈ ([regMagic, regVersion, regString, regType] : List Byte))
  | .wrhiUnrecognized _ => active && !cfg.recognized sel
  | .rdhiMagic => sel == regMagic
  | .rdhiVersion => sel == regVersion
  | .rdhiString => sel == regString
  | .rdhiType => sel == regType
  | .rdhiBase => sel == regBase
  | .rdhiFw => sel == regFirmware
  | .rdhiTuning => decide (sel ∈ cfg.tuningRegs)
  | .rdhiUnrecognized => !cfg.recognized sel
  | .rdloBase => sel == regBase
  | .rdloOther => sel != regBase

end Sys2Proof
end

