-- ==== Sys2Proof/Decode.lean ====
section
/-!
DEFINITION. The decoder and, after it, the encoder: the canonical transaction word (R91, R92), the classes of R96 and R97, the
second-level operations of R101, the canonical response word (R94) and the assembler's expansion (R106).
-/

namespace Sys2Proof

/-- Why a number is no canonical transaction word. -/
inductive DecodeError where
  /-- A bit above bit 18 is set: the canonical word has 19 bits (R91; log entry 12). -/
  | bitsAbove18
deriving DecidableEq, Repr

/-- The transaction of a canonical word (R91). The data bits of a read are ignored (R92). -/
def Transaction.ofWord (w : BitVec 19) : Transaction :=
  if w.getLsbD 18 then .iow (w.extractLsb' 8 10) (w.extractLsb' 0 8) else .ior (w.extractLsb' 8 10)

/-- The transaction of any number, refusing by name one that is no 19-bit word. -/
def decodeRaw (w : Nat) : Except DecodeError Transaction :=
  if w < 2 ^ 19 then .ok (Transaction.ofWord (BitVec.ofNat 19 w)) else .error .bitsAbove18

/-- The class of a write (R96), the tests in the table's order. -/
def decodeIow (cfg : Config) (base : Word16) (port : Port) (v : Byte) : Instr :=
  if port = cfg.controlPort then
    if v = unlockByte then .iowUnlock else .iowSelect v
  else if port = cfg.dataLowPort then .iowDataLo v
  else if port = cfg.dataHighPort then .iowDataHi v
  else
    match cfg.offset? base port with
    | some off => if cfg.writeFast off then .iowBackendFast off v else .iowBackendSlow off v
    | none => .iowUnmapped port v

/-- The class of a read (R97), the tests in the table's order. -/
def decodeIor (cfg : Config) (base : Word16) (port : Port) : Instr :=
  if port = cfg.controlPort then .iorCtrl
  else if port = cfg.dataLowPort then .iorDataLo
  else if port = cfg.dataHighPort then .iorDataHi
  else
    match cfg.offset? base port with
    | some off =>
      match cfg.sentinelAt off with
      | some b => .iorBackendSentinel off b
      | none => .iorBackend off
    | none => .iorUnmapped port

/-- The first-level decode of a transaction (R121, R129), with `base_port` as it stands before the transaction. -/
def decode (cfg : Config) (base : Word16) : Transaction → Instr
  | .iow port v => decodeIow cfg base port v
  | .ior port => decodeIor cfg base port

/-- The select row of a written index (R101). -/
def selectInstr (cfg : Config) (v : Byte) : Instr :=
  match cfg.selectOp v with
  | .magic => .selMagic
  | .version => .selVersion
  | .string => .selString
  | .type => .selType
  | .base => .selBase
  | .firmware => .selFw
  | .tuning => .selTuning v
  | .unrecognized => .selUnrecognized v

/-- The data-port-low write row of a selected register (R101). -/
def writeLowInstr (sel v : Byte) : Instr :=
  match writeLowOp sel with
  | .base => .wrloBase v
  | .ignored => .wrloIgnored v

/-- The data-port-high write row of a selected register (R101). -/
def writeHighInstr (cfg : Config) (sel v : Byte) : Instr :=
  match cfg.writeHighOp sel with
  | .base => .wrhiBase v
  | .firmware => .wrhiFw v
  | .tuning => .wrhiTuning v
  | .ignored => .wrhiIgnored v
  | .unrecognized => .wrhiUnrecognized v

/-- The data-port-high read row of a selected register (R101). -/
def readHighInstr (cfg : Config) (sel : Byte) : Instr :=
  match cfg.readHighOp sel with
  | .magic => .rdhiMagic
  | .version => .rdhiVersion
  | .string => .rdhiString
  | .type => .rdhiType
  | .base => .rdhiBase
  | .firmware => .rdhiFw
  | .tuning => .rdhiTuning
  | .unrecognized => .rdhiUnrecognized

/-- The data-port-low read row of a selected register (R101). -/
def readLowInstr (sel : Byte) : Instr :=
  match readLowOp sel with
  | .base => .rdloBase
  | .other => .rdloOther

/-- The second-level decode of a class (R101): the operation row inside its parent, and the class itself where the class has
no second level or, for a write, where the protocol is locked (R123, R162). -/
def refine (cfg : Config) (active : Bool) (sel : Byte) : Instr → Instr
  | .iowSelect v => if active then selectInstr cfg v else .iowSelect v
  | .iowDataLo v => if active then writeLowInstr sel v else .iowDataLo v
  | .iowDataHi v => if active then writeHighInstr cfg sel v else .iowDataHi v
  | .iorDataLo => readLowInstr sel
  | .iorDataHi => readHighInstr cfg sel
  | i => i

/-- Both levels of the decode. -/
def decodeFull (cfg : Config) (active : Bool) (sel : Byte) (base : Word16) (tx : Transaction) : Instr :=
  refine cfg active sel (decode cfg base tx)

/-- What the decoder reads from the number `w` as a canonical word (R91), in the configuration EX with the base port it has
after reset (log entry 10). A word settles only the first level of the decode, so the answer is a transaction class. -/
def decodeTableWord (_nbits w : Nat) : Option Instr :=
  match decodeRaw w with
  | .ok tx => some (decode Config.ex Config.ex.defaultBasePort tx)
  | .error _ => none

/-- The canonical word of a transaction (R91): `(dir << 18) | (port << 8) | data`. -/
def Transaction.word : Transaction → BitVec 19
  | .iow port v => (1#19 <<< 18) ||| (port.setWidth 19 <<< 8) ||| v.setWidth 19
  | .ior port => port.setWidth 19 <<< 8

/-- The port of a region offset (R98). -/
def regionPort (base : Word16) (off : Nat) : Port := BitVec.ofNat 10 (base.toNat + off)

/-- The bus cycle of an instruction: the encoding line of its rule (spec/40, spec/41). -/
def Instr.transaction (cfg : Config) (base : Word16) : Instr → Transaction
  | .iowUnlock => .iow cfg.controlPort unlockByte
  | .iowSelect v => .iow cfg.controlPort v
  | .iowDataLo v => .iow cfg.dataLowPort v
  | .iowDataHi v => .iow cfg.dataHighPort v
  | .iowBackendFast off v => .iow (regionPort base off) v
  | .iowBackendSlow off v => .iow (regionPort base off) v
  | .iowUnmapped port v => .iow port v
  | .iorCtrl => .ior cfg.controlPort
  | .iorDataLo => .ior cfg.dataLowPort
  | .iorDataHi => .ior cfg.dataHighPort
  | .iorBackendSentinel off _ => .ior (regionPort base off)
  | .iorBackend off => .ior (regionPort base off)
  | .iorUnmapped port => .ior port
  | .selMagic => .iow cfg.controlPort regMagic
  | .selVersion => .iow cfg.controlPort regVersion
  | .selString => .iow cfg.controlPort regString
  | .selType => .iow cfg.controlPort regType
  | .selBase => .iow cfg.controlPort regBase
  | .selFw => .iow cfg.controlPort regFirmware
  | .selTuning r => .iow cfg.controlPort r
  | .selUnrecognized v => .iow cfg.controlPort v
  | .wrloBase v => .iow cfg.dataLowPort v
  | .wrloIgnored v => .iow cfg.dataLowPort v
  | .wrhiBase v => .iow cfg.dataHighPort v
  | .wrhiFw v => .iow cfg.dataHighPort v
  | .wrhiTuning v => .iow cfg.dataHighPort v
  | .wrhiIgnored v => .iow cfg.dataHighPort v
  | .wrhiUnrecognized v => .iow cfg.dataHighPort v
  | .rdhiMagic => .ior cfg.dataHighPort
  | .rdhiVersion => .ior cfg.dataHighPort
  | .rdhiString => .ior cfg.dataHighPort
  | .rdhiType => .ior cfg.dataHighPort
  | .rdhiBase => .ior cfg.dataHighPort
  | .rdhiFw => .ior cfg.dataHighPort
  | .rdhiTuning => .ior cfg.dataHighPort
  | .rdhiUnrecognized => .ior cfg.dataHighPort
  | .rdloBase => .ior cfg.dataLowPort
  | .rdloOther => .ior cfg.dataLowPort

/-- The canonical word of an instruction. -/
def encode (cfg : Config) (base : Word16) (i : Instr) : BitVec 19 := (i.transaction cfg base).word

/-- R93's field `terminal`. -/
def Response.terminal : Response → Bool
  | .hold => false
  | .done => true
  | .doneData _ => true

/-- R93's field `drive`, the pin-direction flag. -/
def Response.drive : Response → Bool
  | .hold => false
  | .done => false
  | .doneData _ => true

/-- R93's optional field `data`. -/
def Response.data : Response → Option Byte
  | .hold => none
  | .done => none
  | .doneData b => some b

/-- The canonical response word (R94): `(terminal << 9) | (drive << 8) | data`, with `data = 0` when absent. -/
def Response.word (r : Response) : BitVec 10 :=
  ((BitVec.ofBool r.terminal).setWidth 10 <<< 9) ||| ((BitVec.ofBool r.drive).setWidth 10 <<< 8)
    ||| (r.data.getD 0).setWidth 10

/-- The transactions of an assembler form (R106). -/
def Asm.expand (cfg : Config) : Asm → List Transaction
  | .out port v => [.iow port v]
  | .inp port => [.ior port]
  | .unlock => [.iow cfg.controlPort unlockByte]
  | .sel r => [.iow cfg.controlPort r]
  | .wrlo v => [.iow cfg.dataLowPort v]
  | .wrhi v => [.iow cfg.dataHighPort v]
  | .rdlo => [.ior cfg.dataLowPort]
  | .rdhi => [.ior cfg.dataHighPort]
  | .setBase p => [.iow cfg.controlPort regBase, .iow cfg.dataLowPort (lowHalf p), .iow cfg.dataHighPort (highHalf p)]
  | .rdsel => [.ior cfg.controlPort]

end Sys2Proof
end

