-- ==== Sys2Proof/Machine/State.lean ====
section
/-!
DEFINITION. The state: the six fields of the Control State (R32), the event queues it is fed from (R46), the host agent (R74),
the read Context B has in progress (R77), the trace it leaves (R14, R16), the configuration (R7), and the model's own fields for draws and for the reset input. Plain data throughout.
-/

namespace Sys2Proof.Machine

/-- An effect of a dispatch call (R14). A call that returns a byte is recorded with its answer. -/
inductive Effect where
  /-- `Emit(r)`: a response word pushed to the Bus Event Source. -/
  | emit (r : Response)
  /-- `BackendWrite(off, v)` -/
  | backendWrite (off : Nat) (v : Byte)
  /-- `b <- BackendRead(off)` -/
  | backendRead (off : Nat) (b : Byte)
  /-- `BackendRebase(p)` -/
  | backendRebase (p : Word16)
  /-- `BackendTune(r, v)` -/
  | backendTune (r v : Byte)
  /-- `b <- BackendTuneRead(r)` -/
  | backendTuneRead (r b : Byte)
  /-- `UpdaterEnter()` -/
  | updaterEnter
  /-- `UpdaterByte(v)` -/
  | updaterByte (v : Byte)
  /-- `b <- UpdaterStatus()` -/
  | updaterStatus (b : Byte)
  /-- `b <- Unspecified()`: a draw with no effect on any agent. -/
  | unspecified (b : Byte)
deriving DecidableEq, Repr

/-- The Control State: exactly six fields (R32). -/
structure ControlState where
  /-- `selected_register` (R33). -/
  selectedRegister : Byte
  /-- `control_active` (R34). -/
  controlActive : Bool
  /-- `base_port` (R35). -/
  basePort : Word16
  /-- `base_port_staging_low` (R36). -/
  basePortStagingLow : Byte
  /-- `string_cursor` (R37); `string_cursor <= L` is an invariant, not part of the type. -/
  stringCursor : Nat
  /-- `firmware_update_active` (R38). -/
  firmwareUpdateActive : Bool
deriving DecidableEq, Repr

/-- A read of `base_port` by Context B that has begun (R77): the value held when it began, the values a reset has given
`base_port` and those committed before that reset since, and the length of the trace from which on commits are still to be
counted. -/
structure ContextBRead where
  first : Word16
  later : List Word16
  mark : Nat
deriving DecidableEq, Repr

/-- The whole machine. -/
structure State where
  /-- The configuration of R7. R7 says it is an argument of the model and no state: it stands here because `exec` and `step`
  take no other argument, and no step writes it (DESIGN CHOICE, safe: log entry 1). -/
  cfg : Config
  /-- The Control State (R32). -/
  ctl : ControlState
  /-- The write-direction FIFO of the Bus Event Source, oldest event first (R46). -/
  iowQueue : List IowEvent
  /-- The read-direction FIFO of the Bus Event Source, oldest event first (R46). -/
  iorQueue : List Port
  /-- The host agent of R74: the transactions it is still to issue, in issue order (log entry 17). -/
  hostProgram : List Transaction
  /-- The read of `base_port` that Context B has in progress, if any (R77, R219; log entry 16). -/
  contextB : Option ContextBRead
  /-- The effects so far, oldest first (R14, R75). One dispatch call appends its own trace (DESIGN CHOICE, safe: log entry 6). -/
  trace : List Effect
  /-- The index of the next free value (R15). The model's own field (DESIGN CHOICE, safe: log entry 4). -/
  draws : Nat
  /-- The input "an external reset has arrived" (R231). The model's own field (DESIGN CHOICE: log entry 9). -/
  resetPending : Bool
deriving DecidableEq, Repr

/-- There is no fault: "No exceptions or error returns cross this layer's boundary" (R200), and no item of spec/93 is a fault
or a stuck state. Nothing raises one, so no proof can hide a run behind one. -/
inductive Fault where
deriving DecidableEq, Repr

/-- Why the model gives a step no meaning. -/
inductive Refusal where
  /-- Raised by `exec` alone, for an instruction that has no meaning yet. Safe: nothing is claimed of it. -/
  | notModelled (mnemonic : String)
  /-- Raised by `step` alone, for a configuration that R9 refuses or that breaks a constraint of R7. Safe: the spec gives it no
  meaning either (log entry 13). -/
  | illFormedConfig
deriving DecidableEq, Repr

/-- The Control State right after reset (R51, R230). The cursor and the update flag are the spec's own choice (D8, D9). -/
def ControlState.resetWith (cfg : Config) : ControlState where
  selectedRegister := 0x00
  controlActive := false
  basePort := cfg.defaultBasePort
  basePortStagingLow := cfg.stagingReset
  stringCursor := 0
  firmwareUpdateActive := false

/-- The machine right after boot in a given configuration: reset Control State, and the launch premise of R233 that both
queues are empty. The host has issued nothing and Context B reads nothing (log entries 16 and 17). -/
def State.resetWith (cfg : Config) : State where
  cfg := cfg
  ctl := ControlState.resetWith cfg
  iowQueue := []
  iorQueue := []
  hostProgram := []
  contextB := none
  trace := []
  draws := 0
  resetPending := false

/-- The machine right after reset, in the example configuration EX (DESIGN CHOICE, unsafe for a claim about this one state:
log entry 2). `State.resetWith` is the same for every configuration. -/
def State.reset : State := State.resetWith Config.ex

end Sys2Proof.Machine
end

