-- ==== Sys2Proof/Machine/Flags.lean ====
section
/-!
DEFINITION. The flag and timing computations: the gate `control_active` puts on writes (R123, R162), the timing class of a
data-port write (R105, R124, R125). The two flags themselves are fields of the Control State (R40).
-/

namespace Sys2Proof.Machine

/-- A data-port write is slow exactly when the firmware-update register is selected (R105; the flag `control_active` plays no
part, D26). -/
def ControlState.slowDataWrite (c : ControlState) : Bool := c.selectedRegister == regFirmware

/-- Performs an operation only while the protocol is unlocked, and otherwise drops it (R123, R162). -/
def State.whenUnlocked (s : State) (op : State → State) : State := if s.ctl.controlActive then op s else s

end Sys2Proof.Machine
end

