-- ==== Sys2Proof/Machine/Ops.lean ====
section
/-!
DEFINITION. The named operations: pushing effects and drawing answers (R14, R15), the response templates of the transaction
classes (R105, R122 to R135), the queues and their interrupt lines (R46, R208 to R212), and the external reset (R230). The
block has no exception to take or return from (R200) and no memory (R60).
-/

namespace Sys2Proof.Machine

/-- Appends one effect to the trace (R14). -/
def State.push (s : State) (e : Effect) : State := { s with trace := s.trace ++ [e] }

/-- `Emit(r)` (R14). -/
def State.emit (s : State) (r : Response) : State := s.push (.emit r)

/-- Replaces the Control State. -/
def State.setCtl (s : State) (c : ControlState) : State := { s with ctl := c }

/-- Leaves the next draw behind (R15). -/
def State.advanceDraw (s : State) : State := { s with draws := s.draws + 1 }

/-- A call that answers a byte: the byte is a free value (R15), and the call is recorded with its answer. -/
def State.ask (s : State) (call : Byte → Effect) : Byte × State :=
  (Config.freeByte s.draws, s.advanceDraw.push (call (Config.freeByte s.draws)))

/-- The template of a control-port write (R122, R123): `Hold`, the work, `Done`. -/
def State.controlWrite (s : State) (op : State → State) : State := (op (s.emit .hold)).emit .done

/-- The template of a data-port write (R124, R125): `Done` and then the work if fast, `Hold`, the work and `Done` if slow. The
work is dropped while locked, with the same responses. The timing class is read before the work. -/
def State.dataWrite (s : State) (op : State → State) : State :=
  if s.ctl.slowDataWrite then ((s.emit .hold).whenUnlocked op).emit .done
  else (s.emit .done).whenUnlocked op

/-- The template of a mapped read (R130 to R134): `Hold`, the value computed, `DoneData`. -/
def State.mappedRead (s : State) (op : State → Byte × State) : State :=
  (op (s.emit .hold)).2.emit (.doneData (op (s.emit .hold)).1)

/-- The Bus Event Source delivers one event: it goes to the end of its direction's queue (R46, R90). -/
def State.deliver (s : State) : Transaction → State
  | .iow port v => { s with iowQueue := s.iowQueue ++ [{ port := port, data := v }] }
  | .ior port => { s with iorQueue := s.iorQueue ++ [port] }

/-- The host is given transactions to issue, after those it has (R106's programs). -/
def State.request (s : State) (txs : List Transaction) : State := { s with hostProgram := s.hostProgram ++ txs }

/-- The host issues its next transaction, and the Bus Event Source delivers it (R74, R240). -/
def State.hostIssue (s : State) : State :=
  match s.hostProgram with
  | [] => s
  | tx :: rest => { s with hostProgram := rest }.deliver tx

/-- Makes one event the next to be served: it goes to the head of its queue, and the other queue and the reset input are
emptied, since either could be served first. It stands for the delivery from outside (log entry 7). -/
def State.place (s : State) : Transaction → State
  | .iow port v => { s with iowQueue := { port := port, data := v } :: s.iowQueue, iorQueue := [], resetPending := false }
  | .ior port => { s with iorQueue := port :: s.iorQueue, iowQueue := [], resetPending := false }

/-- The write direction's interrupt line: pending exactly while its queue is non-empty (R208, R211). -/
def State.writeLinePending (s : State) : Bool := !s.iowQueue.isEmpty

/-- The read direction's interrupt line (R208, R211). -/
def State.readLinePending (s : State) : Bool := !s.iorQueue.isEmpty

/-- The host has a transaction outstanding and waits for its terminal response (R74). The dispatch call that pops an event pushes
its terminal response (R120), so the host waits exactly while an event is queued. -/
def State.hostWaiting (s : State) : Bool := s.writeLinePending || s.readLinePending

/-- The Dispatch Loop Driver pops one event (R208, R209): the oldest of the direction it serves. If both queues hold events
the direction is free (R212, I19), which uses one free value. -/
def State.popEvent (s : State) : Option (Transaction × State) :=
  match s.iowQueue, s.iorQueue with
  | [], [] => none
  | w :: ws, [] => some (.iow w.port w.data, { s with iowQueue := ws })
  | [], r :: rs => some (.ior r, { s with iorQueue := rs })
  | w :: ws, r :: rs =>
    if Config.freeWriteFirst s.draws then some (.iow w.port w.data, { s.advanceDraw with iowQueue := ws })
    else some (.ior r, { s.advanceDraw with iorQueue := rs })

/-- The base port an effect commits, if it is a commit (R165). -/
def Effect.rebased? : Effect → Option Word16
  | .emit _ => none
  | .backendWrite _ _ => none
  | .backendRead _ _ => none
  | .backendRebase p => some p
  | .backendTune _ _ => none
  | .backendTuneRead _ _ => none
  | .updaterEnter => none
  | .updaterByte _ => none
  | .updaterStatus _ => none
  | .unspecified _ => none

/-- The values a read in progress has seen `base_port` given after the first: by the resets it lived through and the commits
since. -/
def ContextBRead.seen (r : ContextBRead) (trace : List Effect) : List Word16 :=
  r.later ++ (trace.drop r.mark).filterMap Effect.rebased?

/-- What an external reset does to a read in progress: the default base port is one more value it may return (R77, R230). -/
def ContextBRead.throughReset (r : ContextBRead) (trace : List Effect) (base : Word16) : ContextBRead :=
  { r with later := r.seen trace ++ [base], mark := trace.length }

/-- The outside world asserts the external reset (R231). -/
def State.requestReset (s : State) : State := { s with resetPending := true }

/-- The external reset (R230, R231): every field of the Control State takes its reset value, and the queues are empty by the
launch premise of R233. No response and no call, so the trace stays. The host and Context B are not reset; a read Context B has in
progress may return the default base port too (log entry 9). -/
def State.externalReset (s : State) : State :=
  { s with ctl := ControlState.resetWith s.cfg, iowQueue := [], iorQueue := [], resetPending := false,
           contextB := s.contextB.map fun r => r.throughReset s.trace s.cfg.defaultBasePort }

end Sys2Proof.Machine
end

