-- ==== Sys2Proof/Machine/Collaborators.lean ====
section
/-!
DEFINITION. The contracts the spec gives of the agents outside the block: what a backend's bounded queue does when it is full
(R205), what a "size - 1" backend makes of a tuning byte (R180), and what Context B may read of `base_port` (R77). The block
performs none of them in a dispatch call.
-/

namespace Sys2Proof.Machine

/-- A write to a backend's bounded queue (R205): it never grows past its capacity and never blocks. `dropNewest` drops the
arriving entry, `overwriteOldest` the oldest one. -/
def enqueueBounded (policy : OverflowPolicy) (capacity : Nat) (queue : List (Nat × Byte)) (entry : Nat × Byte) :
    List (Nat × Byte) :=
  if queue.length < capacity then queue ++ [entry]
  else
    match policy with
    | .dropNewest => queue
    | .overwriteOldest => (queue ++ [entry]).drop 1

/-- What a queue-backed backend of a given capacity holds after `BackendWrite(off, v)`, under `P_QUEUE_OVERFLOW` (R205). -/
def backendQueueAfter (cfg : Config) (capacity : Nat) (queue : List (Nat × Byte)) (off : Nat) (v : Byte) : List (Nat × Byte) :=
  enqueueBounded cfg.queueOverflow capacity queue (off, v)

/-- The effective size of a "size - 1" backend: `zext(v) + 1` in 9 bits (R180, D32). -/
def tuningSize (v : Byte) : BitVec 9 := v.setWidth 9 + 1

/-- The values `base_port` has been given: the default at reset and every committed value, oldest first (R35, R77). -/
def State.committedBases (s : State) : List Word16 :=
  s.cfg.defaultBasePort :: s.trace.filterMap Effect.rebased?

/-- Context B begins a read of `base_port` (R77): from here on it may return the value held now or any later one. -/
def State.beginContextBRead (s : State) : State :=
  { s with contextB := some { first := s.ctl.basePort, later := [], mark := s.trace.length } }

/-- The values a Context B read that ends now may return (R77, D35, I18): the value `base_port` held when the read began, which
is that of its last commit before then, and every value it has been given since. A read that begins and ends at once has the
present value alone. -/
def State.contextBCandidates (s : State) : List Word16 :=
  match s.contextB with
  | none => [s.ctl.basePort]
  | some r => r.first :: r.seen s.trace

/-- A read of `base_port` by Context B ends (R77): the answer is a draw over its candidates, each a value seen whole. The block's
own state does not change (R219; log entry 16). -/
def contextBRead (s : State) : Word16 × State :=
  (s.contextBCandidates.getD (Config.freeIndex s.draws % s.contextBCandidates.length) s.ctl.basePort,
    { s.advanceDraw with contextB := none })

end Sys2Proof.Machine
end

