-- ==== Sys2Proof/Machine/Protocol.lean ====
section
/-!
DEFINITION. The control protocol's operations (R150): the unlock (R151), the selects (R152 to R160), the data-register writes
(R163 to R169) and reads (R170 to R179). None of them pushes a response.
-/

namespace Sys2Proof.Machine

/-- `Unlock()` (R151). -/
def unlock (s : State) : State := s.setCtl { s.ctl with controlActive := true }

/-- The common part of every select (R152). -/
def storeIndex (v : Byte) (s : State) : State := s.setCtl { s.ctl with selectedRegister := v }

/-- R153. -/
def selectMagic (s : State) : State := storeIndex regMagic s

/-- R154. -/
def selectVersion (s : State) : State := storeIndex regVersion s

/-- R155: the cursor restarts. -/
def selectString (s : State) : State :=
  s.setCtl { s.ctl with selectedRegister := regString, stringCursor := 0 }

/-- R156. -/
def selectType (s : State) : State := storeIndex regType s

/-- R157: the staging byte is kept. -/
def selectBase (s : State) : State := storeIndex regBase s

/-- R158: the updater is signalled on entry to the mode only. -/
def selectFirmware (s : State) : State :=
  if s.ctl.firmwareUpdateActive then storeIndex regFirmware s
  else (s.setCtl { s.ctl with selectedRegister := regFirmware, firmwareUpdateActive := true }).push .updaterEnter

/-- R159. -/
def selectTuning (r : Byte) (s : State) : State := storeIndex r s

/-- R160: the index is stored and the protocol locks. -/
def selectUnrecognized (v : Byte) (s : State) : State :=
  s.setCtl { s.ctl with selectedRegister := v, controlActive := false }

/-- `Select(v)` (R152 to R160). -/
def select (v : Byte) (s : State) : State :=
  match s.cfg.selectOp v with
  | .magic => selectMagic s
  | .version => selectVersion s
  | .string => selectString s
  | .type => selectType s
  | .base => selectBase s
  | .firmware => selectFirmware s
  | .tuning => selectTuning v s
  | .unrecognized => selectUnrecognized v s

/-- R163: the staging byte is latched. -/
def latchStaging (v : Byte) (s : State) : State := s.setCtl { s.ctl with basePortStagingLow := v }

/-- R164, R168, R169: no effect. -/
def ignoreWrite (_v : Byte) (s : State) : State := s

/-- `WriteLow(v)` (R163, R164). -/
def writeLow (v : Byte) (s : State) : State :=
  match writeLowOp s.ctl.selectedRegister with
  | .base => latchStaging v s
  | .ignored => ignoreWrite v s

/-- R165: the base port is committed whole, and the backend is told. -/
def commitBase (v : Byte) (s : State) : State :=
  (s.setCtl { s.ctl with basePort := assembleBase v s.ctl.basePortStagingLow }).push
    (.backendRebase (assembleBase v s.ctl.basePortStagingLow))

/-- R166. -/
def streamByte (v : Byte) (s : State) : State := s.push (.updaterByte v)

/-- R167: the byte is passed unchanged. -/
def tuneBackend (v : Byte) (s : State) : State := s.push (.backendTune s.ctl.selectedRegister v)

/-- `WriteHigh(v)` (R165 to R169). -/
def writeHigh (v : Byte) (s : State) : State :=
  match s.cfg.writeHighOp s.ctl.selectedRegister with
  | .base => commitBase v s
  | .firmware => streamByte v s
  | .tuning => tuneBackend v s
  | .ignored => ignoreWrite v s
  | .unrecognized => ignoreWrite v s

/-- R170. -/
def readMagic (s : State) : Byte × State := (magicByte, s)

/-- R171. -/
def readVersion (s : State) : Byte × State := (s.cfg.protocolVersion, s)

/-- R172: the next byte of the identity string, and the cursor moves on, or back to 0 at the terminator. -/
def readString (s : State) : Byte × State :=
  (s.cfg.idByte s.ctl.stringCursor,
    s.setCtl { s.ctl with
      stringCursor := if s.ctl.stringCursor = s.cfg.idLength then 0 else s.ctl.stringCursor + 1 })

/-- R173. -/
def readType (s : State) : Byte × State := (s.cfg.backendType, s)

/-- R174. -/
def readBaseHigh (s : State) : Byte × State := (highHalf s.ctl.basePort, s)

/-- R175: the status code is a draw. -/
def readUpdaterStatus (s : State) : Byte × State := s.ask .updaterStatus

/-- R176: the backend's answer is a draw. -/
def readTuning (s : State) : Byte × State := s.ask (.backendTuneRead s.ctl.selectedRegister)

/-- R177, R179: a draw with no effect on any agent. -/
def readUnspecified (s : State) : Byte × State := s.ask .unspecified

/-- `ReadHigh()` (R170 to R177). -/
def readHigh (s : State) : Byte × State :=
  match s.cfg.readHighOp s.ctl.selectedRegister with
  | .magic => readMagic s
  | .version => readVersion s
  | .string => readString s
  | .type => readType s
  | .base => readBaseHigh s
  | .firmware => readUpdaterStatus s
  | .tuning => readTuning s
  | .unrecognized => readUnspecified s

/-- R178. -/
def readBaseLow (s : State) : Byte × State := (lowHalf s.ctl.basePort, s)

/-- `ReadLow()` (R178, R179). -/
def readLow (s : State) : Byte × State :=
  match readLowOp s.ctl.selectedRegister with
  | .base => readBaseLow s
  | .other => readUnspecified s

end Sys2Proof.Machine
end

