-- ==== Sys2Proof/Machine/BusRead.lean ====
section
/-!
DEFINITION. The meanings of the IOR classes (spec/40_bus_dispatch.md section 3). No read is gated by `control_active` (R138).
-/

namespace Sys2Proof.Machine

/-- `IOR_CTRL` (R130). -/
def execIorCtrl (s : State) : Host.Outcome State Fault Refusal :=
  .next (s.mappedRead fun t => (t.ctl.selectedRegister, t))

/-- `IOR_DATA_LO` (R131). -/
def execIorDataLo (s : State) : Host.Outcome State Fault Refusal :=
  .next (s.mappedRead readLow)

/-- `IOR_DATA_HI` (R132). -/
def execIorDataHi (s : State) : Host.Outcome State Fault Refusal :=
  .next (s.mappedRead readHigh)

/-- `IOR_BACKEND_SENTINEL` (R134): no backend call. -/
def execIorBackendSentinel (_off : Nat) (sentinel : Byte) (s : State) : Host.Outcome State Fault Refusal :=
  .next (s.mappedRead fun t => (sentinel, t))

/-- `IOR_BACKEND` (R133): the backend's answer is a draw. -/
def execIorBackend (off : Nat) (s : State) : Host.Outcome State Fault Refusal :=
  .next (s.mappedRead fun t => t.ask (.backendRead off))

/-- `IOR_UNMAPPED` (R135): the bus is released and no value asserted. -/
def execIorUnmapped (_port : Port) (s : State) : Host.Outcome State Fault Refusal :=
  .next (s.emit .done)

end Sys2Proof.Machine
end

