-- ==== Sys2Proof/Machine/BusWrite.lean ====
section
/-!
DEFINITION. The meanings of the IOW classes (spec/40_bus_dispatch.md section 2): each is one dispatch call (R120).
-/

namespace Sys2Proof.Machine

/-- `IOW_UNLOCK` (R122). -/
def execIowUnlock (s : State) : Host.Outcome State Fault Refusal :=
  .next (s.controlWrite unlock)

/-- `IOW_SELECT` (R123): ignored entirely while locked, with the same responses. -/
def execIowSelect (v : Byte) (s : State) : Host.Outcome State Fault Refusal :=
  .next (s.controlWrite fun t => t.whenUnlocked (select v))

/-- `IOW_DATA_LO` (R124). -/
def execIowDataLo (v : Byte) (s : State) : Host.Outcome State Fault Refusal :=
  .next (s.dataWrite (writeLow v))

/-- `IOW_DATA_HI` (R125). -/
def execIowDataHi (v : Byte) (s : State) : Host.Outcome State Fault Refusal :=
  .next (s.dataWrite (writeHigh v))

/-- `IOW_BACKEND_FAST` (R126): the response before the backend's work. -/
def execIowBackendFast (off : Nat) (v : Byte) (s : State) : Host.Outcome State Fault Refusal :=
  .next ((s.emit .done).push (.backendWrite off v))

/-- `IOW_BACKEND_SLOW` (R127). -/
def execIowBackendSlow (off : Nat) (v : Byte) (s : State) : Host.Outcome State Fault Refusal :=
  .next (((s.emit .hold).push (.backendWrite off v)).emit .done)

/-- `IOW_UNMAPPED` (R128). -/
def execIowUnmapped (_port : Port) (_v : Byte) (s : State) : Host.Outcome State Fault Refusal :=
  .next (s.emit .done)

end Sys2Proof.Machine
end

