-- ==== Sys2Proof/Machine/DataRead.lean ====
section
/-!
DEFINITION. The meanings of the data-register read rows (R170 to R179): the operation inside the data-port read that carries it (R131,
R132).
-/

namespace Sys2Proof.Machine

/-- `RDHI_MAGIC` (R170). -/
def execRdhiMagic (s : State) : Host.Outcome State Fault Refusal :=
  .next (s.mappedRead readMagic)

/-- `RDHI_VERSION` (R171). -/
def execRdhiVersion (s : State) : Host.Outcome State Fault Refusal :=
  .next (s.mappedRead readVersion)

/-- `RDHI_STRING` (R172). -/
def execRdhiString (s : State) : Host.Outcome State Fault Refusal :=
  .next (s.mappedRead readString)

/-- `RDHI_TYPE` (R173). -/
def execRdhiType (s : State) : Host.Outcome State Fault Refusal :=
  .next (s.mappedRead readType)

/-- `RDHI_BASE` (R174). -/
def execRdhiBase (s : State) : Host.Outcome State Fault Refusal :=
  .next (s.mappedRead readBaseHigh)

/-- `RDHI_FW` (R175). -/
def execRdhiFw (s : State) : Host.Outcome State Fault Refusal :=
  .next (s.mappedRead readUpdaterStatus)

/-- `RDHI_TUNING` (R176). -/
def execRdhiTuning (s : State) : Host.Outcome State Fault Refusal :=
  .next (s.mappedRead readTuning)

/-- `RDHI_UNRECOGNIZED` (R177). -/
def execRdhiUnrecognized (s : State) : Host.Outcome State Fault Refusal :=
  .next (s.mappedRead readUnspecified)

/-- `RDLO_BASE` (R178). -/
def execRdloBase (s : State) : Host.Outcome State Fault Refusal :=
  .next (s.mappedRead readBaseLow)

/-- `RDLO_OTHER` (R179). -/
def execRdloOther (s : State) : Host.Outcome State Fault Refusal :=
  .next (s.mappedRead readUnspecified)

end Sys2Proof.Machine
end

