-- ==== Sys2Proof/Machine/DataWrite.lean ====
section
/-!
DEFINITION. The meanings of the data-register write rows (R163 to R169): the operation inside the data-port write that carries it
(R124, R125), which drops it while locked (R162).
-/

namespace Sys2Proof.Machine

/-- `WRLO_BASE` (R163). -/
def execWrloBase (v : Byte) (s : State) : Host.Outcome State Fault Refusal :=
  .next (s.dataWrite (latchStaging v))

/-- `WRLO_IGNORED` (R164). -/
def execWrloIgnored (v : Byte) (s : State) : Host.Outcome State Fault Refusal :=
  .next (s.dataWrite (ignoreWrite v))

/-- `WRHI_BASE` (R165). -/
def execWrhiBase (v : Byte) (s : State) : Host.Outcome State Fault Refusal :=
  .next (s.dataWrite (commitBase v))

/-- `WRHI_FW` (R166). -/
def execWrhiFw (v : Byte) (s : State) : Host.Outcome State Fault Refusal :=
  .next (s.dataWrite (streamByte v))

/-- `WRHI_TUNING` (R167). -/
def execWrhiTuning (v : Byte) (s : State) : Host.Outcome State Fault Refusal :=
  .next (s.dataWrite (tuneBackend v))

/-- `WRHI_IGNORED` (R168). -/
def execWrhiIgnored (v : Byte) (s : State) : Host.Outcome State Fault Refusal :=
  .next (s.dataWrite (ignoreWrite v))

/-- `WRHI_UNRECOGNIZED` (R169). -/
def execWrhiUnrecognized (v : Byte) (s : State) : Host.Outcome State Fault Refusal :=
  .next (s.dataWrite (ignoreWrite v))

end Sys2Proof.Machine
end

