-- ==== Sys2Proof/Machine/Select.lean ====
section
/-!
DEFINITION. The meanings of the select rows (R153 to R160): the operation inside the control-port write that carries it (R123), which
ignores it while locked.
-/

namespace Sys2Proof.Machine

/-- `SEL_MAGIC` (R153). -/
def execSelMagic (s : State) : Host.Outcome State Fault Refusal :=
  .next (s.controlWrite fun t => t.whenUnlocked selectMagic)

/-- `SEL_VERSION` (R154). -/
def execSelVersion (s : State) : Host.Outcome State Fault Refusal :=
  .next (s.controlWrite fun t => t.whenUnlocked selectVersion)

/-- `SEL_STRING` (R155). -/
def execSelString (s : State) : Host.Outcome State Fault Refusal :=
  .next (s.controlWrite fun t => t.whenUnlocked selectString)

/-- `SEL_TYPE` (R156). -/
def execSelType (s : State) : Host.Outcome State Fault Refusal :=
  .next (s.controlWrite fun t => t.whenUnlocked selectType)

/-- `SEL_BASE` (R157). -/
def execSelBase (s : State) : Host.Outcome State Fault Refusal :=
  .next (s.controlWrite fun t => t.whenUnlocked selectBase)

/-- `SEL_FW` (R158). -/
def execSelFw (s : State) : Host.Outcome State Fault Refusal :=
  .next (s.controlWrite fun t => t.whenUnlocked selectFirmware)

/-- `SEL_TUNING` (R159). -/
def execSelTuning (r : Byte) (s : State) : Host.Outcome State Fault Refusal :=
  .next (s.controlWrite fun t => t.whenUnlocked (selectTuning r))

/-- `SEL_UNRECOGNIZED` (R160). -/
def execSelUnrecognized (v : Byte) (s : State) : Host.Outcome State Fault Refusal :=
  .next (s.controlWrite fun t => t.whenUnlocked (selectUnrecognized v))

end Sys2Proof.Machine
end

