-- ==== Sys2Proof/Machine/Dispatch.lean ====
section
/-!
DEFINITION. The dispatch: one arm per row of spec/opcode_table.json, each one call of that row's meaning.
-/

namespace Sys2Proof.Machine

def exec (i : Instr) (s : State) : Host.Outcome State Fault Refusal :=
  match i with
  | .iowUnlock => Sys2Proof.Machine.execIowUnlock s
  | .iowSelect v => Sys2Proof.Machine.execIowSelect v s
  | .iowDataLo v => Sys2Proof.Machine.execIowDataLo v s
  | .iowDataHi v => Sys2Proof.Machine.execIowDataHi v s
  | .iowBackendFast off v => Sys2Proof.Machine.execIowBackendFast off v s
  | .iowBackendSlow off v => Sys2Proof.Machine.execIowBackendSlow off v s
  | .iowUnmapped port v => Sys2Proof.Machine.execIowUnmapped port v s
  | .iorCtrl => Sys2Proof.Machine.execIorCtrl s
  | .iorDataLo => Sys2Proof.Machine.execIorDataLo s
  | .iorDataHi => Sys2Proof.Machine.execIorDataHi s
  | .iorBackendSentinel off sentinel => Sys2Proof.Machine.execIorBackendSentinel off sentinel s
  | .iorBackend off => Sys2Proof.Machine.execIorBackend off s
  | .iorUnmapped port => Sys2Proof.Machine.execIorUnmapped port s
  | .selMagic => Sys2Proof.Machine.execSelMagic s
  | .selVersion => Sys2Proof.Machine.execSelVersion s
  | .selString => Sys2Proof.Machine.execSelString s
  | .selType => Sys2Proof.Machine.execSelType s
  | .selBase => Sys2Proof.Machine.execSelBase s
  | .selFw => Sys2Proof.Machine.execSelFw s
  | .selTuning r => Sys2Proof.Machine.execSelTuning r s
  | .selUnrecognized v => Sys2Proof.Machine.execSelUnrecognized v s
  | .wrloBase v => Sys2Proof.Machine.execWrloBase v s
  | .wrloIgnored v => Sys2Proof.Machine.execWrloIgnored v s
  | .wrhiBase v => Sys2Proof.Machine.execWrhiBase v s
  | .wrhiFw v => Sys2Proof.Machine.execWrhiFw v s
  | .wrhiTuning v => Sys2Proof.Machine.execWrhiTuning v s
  | .wrhiIgnored v => Sys2Proof.Machine.execWrhiIgnored v s
  | .wrhiUnrecognized v => Sys2Proof.Machine.execWrhiUnrecognized v s
  | .rdhiMagic => Sys2Proof.Machine.execRdhiMagic s
  | .rdhiVersion => Sys2Proof.Machine.execRdhiVersion s
  | .rdhiString => Sys2Proof.Machine.execRdhiString s
  | .rdhiType => Sys2Proof.Machine.execRdhiType s
  | .rdhiBase => Sys2Proof.Machine.execRdhiBase s
  | .rdhiFw => Sys2Proof.Machine.execRdhiFw s
  | .rdhiTuning => Sys2Proof.Machine.execRdhiTuning s
  | .rdhiUnrecognized => Sys2Proof.Machine.execRdhiUnrecognized s
  | .rdloBase => Sys2Proof.Machine.execRdloBase s
  | .rdloOther => Sys2Proof.Machine.execRdloOther s

end Sys2Proof.Machine
end

