-- ==== Sys2Proof/Machine/Step.lean ====
section
/-!
DEFINITION. One step: one dispatch call on one popped event (R6, R120), the external reset if it has arrived (R231), or, with
no event to pop, the host's next transaction (R74), if it has one.
-/

namespace Sys2Proof.Machine

/-- A configuration that R9 refuses has no meaning (log entry 13). Otherwise a reset that has arrived is performed (R230), or one event is
popped (R208), decoded with `base_port` as it stands (R121) and executed to completion (R72). With both queues empty the block
performs no step (R232) and the host, which waits for nothing, issues its next transaction (R74). A host with nothing to issue
leaves the state as it is. -/
def step (s : State) : Host.Outcome State Fault Refusal :=
  if s.cfg.wf then
    if s.resetPending then .next s.externalReset
    else
      match s.popEvent with
      | none => .next s.hostIssue
      | some (tx, t) => exec (decode t.cfg t.ctl.basePort tx) t
  else .refused .illFormedConfig

/-- The state in which the next step runs the transaction whose canonical word is `w` (R91; log entry 7). A number that is no
19-bit word places nothing. -/
def State.withFetchWord (s : State) (_nbits w : Nat) : State :=
  match decodeRaw w with
  | .ok tx => s.place tx
  | .error _ => s

end Sys2Proof.Machine
end

