-- ==== Sys2Proof/Safety.lean ====
section
/-!
DEFINITION. What a safe run is, in the terms the statements use: the protocol's invariants (R37, R48, R49, R52), the response
contract of a dispatch call (R105, R120), and the shape of a next state that differs in the Control State and the trace alone.
-/

namespace Sys2Proof.Machine

/-- The state that differs from `s` only in its Control State, `c`, and in the effects appended to its trace. -/
def State.after (s : State) (c : ControlState) (effs : List Effect) : State :=
  { s with ctl := c, trace := s.trace ++ effs }

/-- As `State.after`, after one draw. -/
def State.afterDraw (s : State) (c : ControlState) (effs : List Effect) : State :=
  { s with ctl := c, trace := s.trace ++ effs, draws := s.draws + 1 }

/-- The invariants the spec gives the Control State: the cursor stays within the identity string (R37), the unlock byte is
never selected (R48), the update register is selected only in update mode (R49), and a locked protocol has register 0x00 or an
unrecognized index selected (R52). -/
def State.ProtocolInv (s : State) : Prop :=
  s.ctl.stringCursor ≤ s.cfg.idLength ∧
  s.ctl.selectedRegister ≠ unlockByte ∧
  (s.ctl.selectedRegister = regFirmware → s.ctl.firmwareUpdateActive = true) ∧
  (s.ctl.controlActive = false → s.ctl.selectedRegister = regMagic ∨ s.cfg.recognized s.ctl.selectedRegister = false)

/-- The base port is one of the values it has been given whole (R73, R77). -/
def State.BaseCommitted (s : State) : Prop := s.ctl.basePort ∈ s.committedBases

/-- The host contract (R74, R240): at most one transaction is outstanding. -/
def State.OneOutstanding (s : State) : Prop := s.iowQueue.length + s.iorQueue.length ≤ 1

/-- The dispatch calls of a list of transactions, one after the other in the order of the list (R74, R75). -/
def dispatchAll : List Transaction → State → Host.Outcome State Fault Refusal
  | [], s => .next s
  | tx :: rest, s =>
    match exec (decode s.cfg s.ctl.basePort tx) s with
    | .next t => dispatchAll rest t
    | .fault r => .fault r
    | .refused r => .refused r

/-- A Context B read in progress counts the commits from a point of the trace that exists. -/
def State.ContextBMarked (s : State) : Prop := ∀ r, s.contextB = some r → r.mark ≤ s.trace.length

/-- Whether an effect is a response word (R14). -/
def Effect.isResponse : Effect → Bool
  | .emit _ => true
  | .backendWrite _ _ => false
  | .backendRead _ _ => false
  | .backendRebase _ => false
  | .backendTune _ _ => false
  | .backendTuneRead _ _ => false
  | .updaterEnter => false
  | .updaterByte _ => false
  | .updaterStatus _ => false
  | .unspecified _ => false

/-- The response contract of one dispatch call (R120): exactly one terminal response and at most one `Hold`, which precedes it. A
call with no `Hold` (a fast path) pushes its response before any work. -/
def OneTerminal (effs : List Effect) : Prop :=
  ∃ r : Response, r.terminal = true ∧
    ((∃ calls : List Effect, effs = .emit r :: calls ∧ ∀ e ∈ calls, e.isResponse = false) ∨
     effs.filter Effect.isResponse = [.emit .hold, .emit r])

end Sys2Proof.Machine
end

