-- ==== Sys2Proof/Certificates/Slice0/Obligations.lean ====
section
/-!
DEFINITION. The statements for the provers. Each docstring names the rule of spec/ it formalises, and the decision D<n> of
spec/92 it rests on where the rule carries one. `s.after c effs` is the state that differs from `s` in the Control State `c` and
in the effects `effs` appended to the trace and in nothing else, so an equation with it is the whole frame of an instruction.
-/

open Sys2Proof Sys2Proof.Machine

/-! ## Words and decoding -/

/-- Spec/30 section 1 (D2): `word = (dir << 18) | (port << 8) | data`, a transaction is read back from its word, and the data
bits of a read have no meaning. -/
def Obligations.TransactionWords : Prop :=
  (∀ (p : Port) (v : Byte), (Transaction.iow p v).word.toNat = 2 ^ 18 + p.toNat * 2 ^ 8 + v.toNat) ∧
  (∀ p : Port, (Transaction.ior p).word.toNat = p.toNat * 2 ^ 8) ∧
  (∀ tx : Transaction, Transaction.ofWord tx.word = tx) ∧
  (∀ (p : Port) (d : Byte), Transaction.ofWord (BitVec.ofNat 19 (p.toNat * 2 ^ 8 + d.toNat)) = .ior p)

/-- Spec/30 section 2 (D3): the canonical words of the three response forms, and no two responses share one. -/
def Obligations.ResponseWords : Prop :=
  Response.hold.word = 0x000 ∧ Response.done.word = 0x200 ∧
  (∀ b : Byte, (Response.doneData b).word.toNat = 0x300 + b.toNat) ∧
  (∀ r r' : Response, r.word = r'.word → r = r')

/-- R96, R97 (spec/30): decoding the canonical word of a transaction class gives the class back, with every operand at every
value its row admits. -/
def Obligations.DecodeEncodeClasses : Prop :=
  ∀ (cfg : Config) (active : Bool) (sel : Byte) (base : Word16) (i : Instr),
    cfg.wf = true → i.isClass = true → i.wf cfg = true → i.appliesIn cfg active sel base = true →
    decode cfg base (Transaction.ofWord (encode cfg base i)) = i

/-- Spec/30 section 3: every transaction decodes to a class whose operands and condition the table admits and whose bus cycle
is that very transaction. -/
def Obligations.DecodeGivesAdmittedClass : Prop :=
  ∀ (cfg : Config) (active : Bool) (sel : Byte) (base : Word16) (tx : Transaction),
    (decode cfg base tx).isClass = true ∧ (decode cfg base tx).wf cfg = true ∧
    (decode cfg base tx).appliesIn cfg active sel base = true ∧ (decode cfg base tx).transaction cfg base = tx

/-- R101 (spec/30; D4, D25): both levels of the decode give an operation row back from its canonical word, in every state in
which the row's condition holds. -/
def Obligations.DecodeEncodeOperations : Prop :=
  ∀ (cfg : Config) (active : Bool) (sel : Byte) (base : Word16) (i : Instr),
    cfg.wf = true → i.isClass = false → i.wf cfg = true → i.appliesIn cfg active sel base = true →
    decodeFull cfg active sel base (Transaction.ofWord (encode cfg base i)) = i

/-- Spec/30 section 3, the table of the IOW classes, with the region test of D13 written out. -/
def Obligations.IowDecodeTable : Prop :=
  ∀ (cfg : Config) (base : Word16) (p : Port) (v : Byte),
    (p = cfg.controlPort → v = 0xCC → decodeIow cfg base p v = .iowUnlock) ∧
    (p = cfg.controlPort → v ≠ 0xCC → decodeIow cfg base p v = .iowSelect v) ∧
    (p ≠ cfg.controlPort → p = cfg.dataLowPort → decodeIow cfg base p v = .iowDataLo v) ∧
    (p ≠ cfg.controlPort → p ≠ cfg.dataLowPort → p = cfg.dataHighPort → decodeIow cfg base p v = .iowDataHi v) ∧
    (p ≠ cfg.controlPort → p ≠ cfg.dataLowPort → p ≠ cfg.dataHighPort →
      (∀ (off : Nat) (e : RegionEntry), p.toNat = base.toNat + off → cfg.entryAt off = some e →
        decodeIow cfg base p v = if e.fast = true then .iowBackendFast off v else .iowBackendSlow off v) ∧
      ((∀ e ∈ cfg.region, p.toNat ≠ base.toNat + e.off) → decodeIow cfg base p v = .iowUnmapped p v))

/-- Spec/30 section 3, the table of the IOR classes in its order, with the region test of D13 written out. -/
def Obligations.IorDecodeTable : Prop :=
  ∀ (cfg : Config) (base : Word16) (p : Port),
    (p = cfg.controlPort → decodeIor cfg base p = .iorCtrl) ∧
    (p ≠ cfg.controlPort → p = cfg.dataLowPort → decodeIor cfg base p = .iorDataLo) ∧
    (p ≠ cfg.controlPort → p ≠ cfg.dataLowPort → p = cfg.dataHighPort → decodeIor cfg base p = .iorDataHi) ∧
    (p ≠ cfg.controlPort → p ≠ cfg.dataLowPort → p ≠ cfg.dataHighPort →
      (∀ (off : Nat) (e : RegionEntry) (b : Byte), p.toNat = base.toNat + off → cfg.entryAt off = some e →
        e.sentinel = some b → decodeIor cfg base p = .iorBackendSentinel off b) ∧
      (∀ (off : Nat) (e : RegionEntry), p.toNat = base.toNat + off → cfg.entryAt off = some e →
        e.sentinel = none → decodeIor cfg base p = .iorBackend off) ∧
      ((∀ e ∈ cfg.region, p.toNat ≠ base.toNat + e.off) → decodeIor cfg base p = .iorUnmapped p))

/-- Spec/20 section 1 (D13, D31): an offset past 0x3FF is reached by no port, and a base port above 0x3FF makes the whole
region unreachable. -/
def Obligations.RegionPastPortsUnreachable : Prop :=
  ∀ (cfg : Config) (base : Word16) (p : Port) (v : Byte),
    (∀ off : Nat, 0x3FF < base.toNat + off →
      decodeIow cfg base p v ≠ .iowBackendFast off v ∧ decodeIow cfg base p v ≠ .iowBackendSlow off v ∧
      decodeIor cfg base p ≠ .iorBackend off ∧ ∀ b : Byte, decodeIor cfg base p ≠ .iorBackendSentinel off b) ∧
    (0x3FF < base.toNat → p ∉ cfg.ctrlPorts →
      decodeIow cfg base p v = .iowUnmapped p v ∧ decodeIor cfg base p = .iorUnmapped p)

/-- Words written out in spec/95 sections 3 and 4 and in spec/opcode_table.json decode to their rows, in EX. -/
def Obligations.SampleWordsDecode : Prop :=
  decodeTableWord 24 0x5D0CC = some .iowUnlock ∧
  decodeTableWord 24 0x5D004 = some (.iowSelect 0x04) ∧
  decodeTableWord 24 0x5D134 = some (.iowDataLo 0x34) ∧
  decodeTableWord 24 0x5D202 = some (.iowDataHi 0x02) ∧
  decodeTableWord 24 0x64711 = some (.iowBackendFast 7 0x11) ∧
  decodeTableWord 24 0x64812 = some (.iowBackendSlow 8 0x12) ∧
  decodeTableWord 24 0x24600 = some (.iorBackendSentinel 6 0xAA) ∧
  decodeTableWord 24 0x24100 = some (.iorBackend 1) ∧
  decodeTableWord 24 0x23F00 = some (.iorUnmapped 0x23F)

/-! ## Reset and the step -/

/-- Spec/10 section 8 and spec/70 section 1 (D7, D8, D9, D29): the Control State after reset, in every configuration. The
staging byte is the configuration's P_STAGING_RESET. That the boot state has empty queues is the launch premise of D29, and its
empty trace, draw index and reset input are the model's choice (log entries 4, 6 and 9). -/
def Obligations.ResetValues : Prop :=
  ∀ cfg : Config,
    (State.resetWith cfg).ctl.selectedRegister = 0x00 ∧ (State.resetWith cfg).ctl.controlActive = false ∧
    (State.resetWith cfg).ctl.basePort = cfg.defaultBasePort ∧
    (State.resetWith cfg).ctl.basePortStagingLow = cfg.stagingReset ∧
    (State.resetWith cfg).ctl.stringCursor = 0 ∧ (State.resetWith cfg).ctl.firmwareUpdateActive = false ∧
    (State.resetWith cfg).cfg = cfg ∧ (State.resetWith cfg).iowQueue = [] ∧ (State.resetWith cfg).iorQueue = []

/-- Spec/70 section 1 (D29): when the external reset has arrived, the step sets the whole Control State to its reset value and
pushes no response and makes no call. That the reset is an input in State, that it empties the queues and that it leaves the host
and Context B as they are, but for the default base port as one more value of a read in progress, is the model's choice (log
entry 9). -/
def Obligations.ExternalResetStep : Prop :=
  ∀ s : State, s.cfg.wf = true → s.resetPending = true →
    step s = .next { s with
      ctl := { selectedRegister := 0x00, controlActive := false, basePort := s.cfg.defaultBasePort,
               basePortStagingLow := s.cfg.stagingReset, stringCursor := 0, firmwareUpdateActive := false }
      iowQueue := [], iorQueue := [], resetPending := false
      contextB := s.contextB.map fun r => r.throughReset s.trace s.cfg.defaultBasePort }

/-- Spec/40 sections 2 and 3: a popped event is classified with `base_port` as it stands before the transaction and executed by
the rule of its class. The step pops the oldest event of its direction's queue (spec/10 section 6, the FIFO of D23), one event a
step (spec/60 section 2), and adds nothing else around `exec`. -/
def Obligations.StepRunsDecodedEvent : Prop :=
  (∀ (s : State) (w : IowEvent) (ws : List IowEvent), s.cfg.wf = true → s.resetPending = false →
    s.iowQueue = w :: ws → s.iorQueue = [] →
    step s = exec (decodeIow s.cfg s.ctl.basePort w.port w.data) { s with iowQueue := ws }) ∧
  (∀ (s : State) (r : Port) (rs : List Port), s.cfg.wf = true → s.resetPending = false →
    s.iowQueue = [] → s.iorQueue = r :: rs →
    step s = exec (decodeIor s.cfg s.ctl.basePort r) { s with iorQueue := rs })

/-- Spec/60 section 2 (D17): if both queues hold an event the order of service is free. The step serves the oldest event of one
of them, and uses one free value for the choice. -/
def Obligations.StepServesEitherDirection : Prop :=
  ∀ (s : State) (w : IowEvent) (ws : List IowEvent) (r : Port) (rs : List Port),
    s.cfg.wf = true → s.resetPending = false → s.iowQueue = w :: ws → s.iorQueue = r :: rs →
    step s = exec (decodeIow s.cfg s.ctl.basePort w.port w.data) { s with iowQueue := ws, draws := s.draws + 1 } ∨
    step s = exec (decodeIor s.cfg s.ctl.basePort r) { s with iorQueue := rs, draws := s.draws + 1 }

/-- Spec/60 section 2 (D41) and spec/70 section 1: each interrupt line is pending exactly while its queue holds an event, and
with neither pending the block performs no step. That such a step of the model leaves the state as it is, where the host has
nothing to issue, is the model's choice (log entry 7). -/
def Obligations.IdleStepChangesNothing : Prop :=
  ∀ s : State, (s.writeLinePending = true ↔ s.iowQueue ≠ []) ∧ (s.readLinePending = true ↔ s.iorQueue ≠ []) ∧
    (s.cfg.wf = true → s.resetPending = false → s.writeLinePending = false → s.readLinePending = false →
      s.hostProgram = [] → step s = .next s)

/-- Spec/00 section 3 (D38): a configuration with two equal control ports, a tuning index among the fixed ones, a 0x00 in the
identity string or an unknown backend type is refused. -/
def Obligations.IllFormedConfigRefused : Prop :=
  ∀ s : State,
    (s.cfg.controlPort = s.cfg.dataLowPort ∨ s.cfg.controlPort = s.cfg.dataHighPort ∨
      s.cfg.dataLowPort = s.cfg.dataHighPort ∨
      (∃ r ∈ s.cfg.tuningRegs, r = 0x00 ∨ r = 0x01 ∨ r = 0x02 ∨ r = 0x03 ∨ r = 0x04 ∨ r = 0xCC ∨ r = 0xFF) ∨
      0x00 ∈ s.cfg.idString ∨ (0x04 < s.cfg.backendType ∧ s.cfg.backendType ≠ 0xFF)) →
    step s = .refused .illFormedConfig

/-- Spec/60 section 1 and spec/93 section 1: the block has no fault and never stops responding. In a well-formed configuration
every step answers a next state. -/
def Obligations.EveryStepCompletes : Prop :=
  ∀ s : State, s.cfg.wf = true → ∃ t : State, step s = .next t

/-! ## The transactions and operations -/

/-- Spec/41 section 2, reached by `IOW_UNLOCK`, whose responses are those of spec/40 section 2 (D12): the unlock byte sets
`control_active` and changes no other field. -/
def Obligations.UnlockSetsControlActive : Prop :=
  ∀ s : State, exec .iowUnlock s = .next (s.after { s.ctl with controlActive := true } [.emit .hold, .emit .done])

/-- Spec/40 section 2, IOW_SELECT (D12): while locked a select is ignored entirely, with the same responses. That a SEL row, which
the spec reaches only unlocked (spec/41 section 3), does the same when it is run while locked is the model's choice: a row stands
for the whole bus cycle of its class, gate included (log entry 11). -/
def Obligations.LockedSelectIgnored : Prop :=
  ∀ (s : State) (v : Byte), s.ctl.controlActive = false →
    ∀ i ∈ [Instr.iowSelect v, .selMagic, .selVersion, .selString, .selType, .selBase, .selFw, .selTuning v,
           .selUnrecognized v],
      exec i s = .next (s.after s.ctl [.emit .hold, .emit .done])

/-- Spec/41 section 3, SEL_MAGIC, SEL_VERSION, SEL_STRING and SEL_TYPE: the selects of registers 0x00, 0x01, 0x02 and 0x03 while
unlocked. Of these four only the select of 0x02 moves the cursor. The operations push no response (spec/41 section 1); `Hold` and
`Done` are those of the control-port write that carries them (spec/40 section 2, IOW_SELECT, D12; log entry 11). -/
def Obligations.SelectFixedRegister : Prop :=
  ∀ s : State, s.ctl.controlActive = true →
    exec .selMagic s = .next (s.after { s.ctl with selectedRegister := 0x00 } [.emit .hold, .emit .done]) ∧
    exec .selVersion s = .next (s.after { s.ctl with selectedRegister := 0x01 } [.emit .hold, .emit .done]) ∧
    exec .selString s =
      .next (s.after { s.ctl with selectedRegister := 0x02, stringCursor := 0 } [.emit .hold, .emit .done]) ∧
    exec .selType s = .next (s.after { s.ctl with selectedRegister := 0x03 } [.emit .hold, .emit .done])

/-- Spec/41 section 3, SEL_BASE and SEL_TUNING (D6, D20): the index is stored, and the staging byte is kept. The responses of a
row are those of its class (log entry 11). -/
def Obligations.SelectBaseAndTuning : Prop :=
  ∀ (s : State) (r : Byte), s.ctl.controlActive = true →
    exec .selBase s = .next (s.after { s.ctl with selectedRegister := 0x04 } [.emit .hold, .emit .done]) ∧
    (r ∈ s.cfg.tuningRegs →
      exec (.selTuning r) s = .next (s.after { s.ctl with selectedRegister := r } [.emit .hold, .emit .done]))

/-- Spec/41 section 3, SEL_FW (D9): the select of 0xFF enters update mode and signals the updater between `Hold` and `Done`, on
entry only. The responses of a row are those of its class (log entry 11). -/
def Obligations.SelectFirmwareEntersOnce : Prop :=
  ∀ s : State, s.ctl.controlActive = true →
    (s.ctl.firmwareUpdateActive = false →
      exec .selFw s = .next (s.after { s.ctl with selectedRegister := 0xFF, firmwareUpdateActive := true }
        [.emit .hold, .updaterEnter, .emit .done])) ∧
    (s.ctl.firmwareUpdateActive = true →
      exec .selFw s = .next (s.after { s.ctl with selectedRegister := 0xFF } [.emit .hold, .emit .done]))

/-- Spec/41 section 3, SEL_UNRECOGNIZED (D5): the index is stored and the protocol locks. The responses of a row are those of
its class (log entry 11). -/
def Obligations.SelectUnrecognizedLocks : Prop :=
  ∀ (s : State) (v : Byte), s.ctl.controlActive = true → s.cfg.recognized v = false → v ≠ 0xCC →
    exec (.selUnrecognized v) s =
      .next (s.after { s.ctl with selectedRegister := v, controlActive := false } [.emit .hold, .emit .done])

/-- Spec/40 section 2, IOW_SELECT, with spec/41 section 3 (D5, D9, D12): a select of any index while unlocked, in one formula. -/
def Obligations.UnlockedSelectEffect : Prop :=
  ∀ (s : State) (v : Byte), s.ctl.controlActive = true →
    exec (.iowSelect v) s = .next (s.after
      { s.ctl with
        selectedRegister := v
        controlActive := s.cfg.recognized v
        stringCursor := if v = 0x02 then 0 else s.ctl.stringCursor
        firmwareUpdateActive := s.ctl.firmwareUpdateActive || v == 0xFF }
      (if v = 0xFF ∧ s.ctl.firmwareUpdateActive = false then [.emit .hold, .updaterEnter, .emit .done]
       else [.emit .hold, .emit .done]))

/-- Spec/41 section 4, write gating, with spec/40 section 2 (D26): a data-register write while locked is dropped with no state
change. The responses are those of its timing class: slow with register 0xFF selected, fast with any other. That a WRLO or WRHI
row, which the spec reaches only unlocked and with its own register selected, does the same when it is run while locked, whatever
register is selected, is the model's choice: a row stands for the whole bus cycle of its class, gate included (log entry 11). -/
def Obligations.LockedDataWriteDropped : Prop :=
  ∀ (s : State) (v : Byte), s.ctl.controlActive = false →
    ∀ i ∈ [Instr.iowDataLo v, .iowDataHi v, .wrloBase v, .wrloIgnored v, .wrhiBase v, .wrhiFw v, .wrhiTuning v,
           .wrhiIgnored v, .wrhiUnrecognized v],
      (s.ctl.selectedRegister ≠ 0xFF → exec i s = .next (s.after s.ctl [.emit .done])) ∧
      (s.ctl.selectedRegister = 0xFF → exec i s = .next (s.after s.ctl [.emit .hold, .emit .done]))

/-- Spec/41 section 4, WRLO_BASE: the low write of register 0x04 latches the staging byte and leaves `base_port` as it was. The
fast response is that of the data-port write that carries it (spec/40 section 2, IOW_DATA_LO, D4, D11, D12, D26; log entry 11). -/
def Obligations.LowWriteLatchesStaging : Prop :=
  ∀ (s : State) (v : Byte), s.ctl.controlActive = true → s.ctl.selectedRegister = 0x04 →
    ∀ i ∈ [Instr.wrloBase v, .iowDataLo v],
      exec i s = .next (s.after { s.ctl with basePortStagingLow := v } [.emit .done])

/-- Spec/41 section 4, WRLO_IGNORED (D4, D11, D25): a low write of any other register has no effect, and is slow for 0xFF. The
responses of a row are those of its class (log entry 11). -/
def Obligations.LowWriteOfOtherRegisterIgnored : Prop :=
  ∀ (s : State) (v : Byte), s.ctl.controlActive = true → s.ctl.selectedRegister ≠ 0x04 →
    ∀ i ∈ [Instr.wrloIgnored v, .iowDataLo v],
      (s.ctl.selectedRegister ≠ 0xFF → exec i s = .next (s.after s.ctl [.emit .done])) ∧
      (s.ctl.selectedRegister = 0xFF → exec i s = .next (s.after s.ctl [.emit .hold, .emit .done]))

/-- R100 (spec/30): the new base port is the written byte above the staging byte; the spec's own example is 0x0234. -/
def Obligations.CommittedBaseAssembly : Prop :=
  (∀ (s : State) (v : Byte), s.ctl.controlActive = true → s.ctl.selectedRegister = 0x04 →
    ∀ i ∈ [Instr.wrhiBase v, .iowDataHi v],
      ∃ t : State, exec i s = .next t ∧
        t.ctl.basePort.toNat = 256 * v.toNat + s.ctl.basePortStagingLow.toNat) ∧
  assembleBase 0x02 0x34 = 0x0234

/-- Spec/41 section 4, WRHI_BASE (D6, D7, D36): the high write of register 0x04 answers `Done`, commits the base port in one
write, and then tells the backend. The staging byte is kept. The responses of a row are those of its class (log entry 11). -/
def Obligations.HighWriteCommitsBase : Prop :=
  ∀ (s : State) (v : Byte) (p : Word16), s.ctl.controlActive = true → s.ctl.selectedRegister = 0x04 →
    p.toNat = 256 * v.toNat + s.ctl.basePortStagingLow.toNat →
    ∀ i ∈ [Instr.wrhiBase v, .iowDataHi v],
      exec i s = .next (s.after { s.ctl with basePort := p } [.emit .done, .backendRebase p])

/-- Spec/41 section 4, WRHI_FW (D4, D11): the high write of register 0xFF streams its byte to the updater, and is slow. The
responses of a row are those of its class (log entry 11). -/
def Obligations.HighWriteStreamsFirmware : Prop :=
  ∀ (s : State) (v : Byte), s.ctl.controlActive = true → s.ctl.selectedRegister = 0xFF →
    ∀ i ∈ [Instr.wrhiFw v, .iowDataHi v],
      exec i s = .next (s.after s.ctl [.emit .hold, .updaterByte v, .emit .done])

/-- Spec/41 section 4, WRHI_TUNING (D4, D32): the high write of a tuning register passes its byte to the backend unchanged. The
responses of a row are those of its class (log entry 11). -/
def Obligations.HighWriteTunesBackend : Prop :=
  ∀ (s : State) (v : Byte), s.cfg.wf = true → s.ctl.controlActive = true →
    s.ctl.selectedRegister ∈ s.cfg.tuningRegs →
    ∀ i ∈ [Instr.wrhiTuning v, .iowDataHi v],
      exec i s = .next (s.after s.ctl [.emit .done, .backendTune s.ctl.selectedRegister v])

/-- Spec/41 section 4, WRHI_IGNORED and WRHI_UNRECOGNIZED (D25): no effect, and a fast response. The responses of a row are
those of its class (log entry 11). -/
def Obligations.HighWriteIgnored : Prop :=
  ∀ (s : State) (v : Byte), s.ctl.controlActive = true →
    (s.ctl.selectedRegister ∈ ([0x00, 0x01, 0x02, 0x03] : List Byte) →
      ∀ i ∈ [Instr.wrhiIgnored v, .iowDataHi v], exec i s = .next (s.after s.ctl [.emit .done])) ∧
    (s.cfg.recognized s.ctl.selectedRegister = false →
      ∀ i ∈ [Instr.wrhiUnrecognized v, .iowDataHi v], exec i s = .next (s.after s.ctl [.emit .done]))

/-- Spec/41 section 5, RDHI_MAGIC, RDHI_VERSION and RDHI_TYPE (D4, D18, D19): the constants, whatever `control_active` is. The
responses of a row are those of its class (log entry 11). -/
def Obligations.HighReadConstants : Prop :=
  ∀ s : State,
    (s.ctl.selectedRegister = 0x00 → ∀ i ∈ [Instr.rdhiMagic, .iorDataHi],
      exec i s = .next (s.after s.ctl [.emit .hold, .emit (.doneData 0xDD)])) ∧
    (s.ctl.selectedRegister = 0x01 → ∀ i ∈ [Instr.rdhiVersion, .iorDataHi],
      exec i s = .next (s.after s.ctl [.emit .hold, .emit (.doneData s.cfg.protocolVersion)])) ∧
    (s.ctl.selectedRegister = 0x03 → ∀ i ∈ [Instr.rdhiType, .iorDataHi],
      exec i s = .next (s.after s.ctl [.emit .hold, .emit (.doneData s.cfg.backendType)]))

/-- Spec/41 section 5, RDHI_STRING (D4, D21): the byte under the cursor is returned and the cursor moves on; the read that
returns the terminator puts it back to 0. The responses of a row are those of its class (log entry 11). -/
def Obligations.HighReadStreamsString : Prop :=
  ∀ s : State, s.ctl.selectedRegister = 0x02 → ∀ i ∈ [Instr.rdhiString, .iorDataHi],
    (∀ h : s.ctl.stringCursor < s.cfg.idString.length,
      exec i s = .next (s.after { s.ctl with stringCursor := s.ctl.stringCursor + 1 }
        [.emit .hold, .emit (.doneData s.cfg.idString[s.ctl.stringCursor])])) ∧
    (s.ctl.stringCursor = s.cfg.idString.length →
      exec i s = .next (s.after { s.ctl with stringCursor := 0 } [.emit .hold, .emit (.doneData 0x00)]))

/-- Spec/41 section 5, RDHI_BASE and RDLO_BASE, with spec/40 section 4 (D24): the halves of the committed base port, never the
staging byte, whatever `control_active` is. The responses of a row are those of its class (log entry 11). -/
def Obligations.ReadBaseHalves : Prop :=
  ∀ (s : State) (h l : Byte), s.ctl.selectedRegister = 0x04 → s.ctl.basePort.toNat = 256 * h.toNat + l.toNat →
    (∀ i ∈ [Instr.rdhiBase, .iorDataHi], exec i s = .next (s.after s.ctl [.emit .hold, .emit (.doneData h)])) ∧
    (∀ i ∈ [Instr.rdloBase, .iorDataLo], exec i s = .next (s.after s.ctl [.emit .hold, .emit (.doneData l)]))

/-- Spec/41 section 5, RDHI_FW, RDHI_TUNING, RDHI_UNRECOGNIZED and RDLO_OTHER (D4, D14, D20, D27): one call, whose answer is a
free value, and that answer is the byte returned. The Control State, the cursor included, is unchanged. The responses of a row
are those of its class (log entry 11). -/
def Obligations.ReadsAnsweredByDraw : Prop :=
  ∀ s : State,
    (s.ctl.selectedRegister = 0xFF → ∀ i ∈ [Instr.rdhiFw, .iorDataHi],
      exec i s = .next (s.afterDraw s.ctl [.emit .hold, .updaterStatus (Config.freeByte s.draws),
        .emit (.doneData (Config.freeByte s.draws))])) ∧
    (s.cfg.wf = true → s.ctl.selectedRegister ∈ s.cfg.tuningRegs → ∀ i ∈ [Instr.rdhiTuning, .iorDataHi],
      exec i s = .next (s.afterDraw s.ctl
        [.emit .hold, .backendTuneRead s.ctl.selectedRegister (Config.freeByte s.draws),
         .emit (.doneData (Config.freeByte s.draws))])) ∧
    (s.cfg.recognized s.ctl.selectedRegister = false → ∀ i ∈ [Instr.rdhiUnrecognized, .iorDataHi],
      exec i s = .next (s.afterDraw s.ctl [.emit .hold, .unspecified (Config.freeByte s.draws),
        .emit (.doneData (Config.freeByte s.draws))])) ∧
    (s.ctl.selectedRegister ≠ 0x04 → ∀ i ∈ [Instr.rdloOther, .iorDataLo],
      exec i s = .next (s.afterDraw s.ctl [.emit .hold, .unspecified (Config.freeByte s.draws),
        .emit (.doneData (Config.freeByte s.draws))]))

/-- Spec/40 section 3, IOR_CTRL (D24): the selected index is returned, whether `control_active` is true or false. -/
def Obligations.ControlPortReadsIndex : Prop :=
  ∀ s : State, exec .iorCtrl s = .next (s.after s.ctl [.emit .hold, .emit (.doneData s.ctl.selectedRegister)])

/-- R126, R127 (spec/40): the Control State is unchanged, and the backend's call stands after the terminal response of a fast
write and between the two responses of a slow one. -/
def Obligations.BackendWriteEffects : Prop :=
  ∀ (s : State) (off : Nat) (v : Byte),
    exec (.iowBackendFast off v) s = .next (s.after s.ctl [.emit .done, .backendWrite off v]) ∧
    exec (.iowBackendSlow off v) s = .next (s.after s.ctl [.emit .hold, .backendWrite off v, .emit .done])

/-- Spec/40 section 3, IOR_BACKEND and IOR_BACKEND_SENTINEL (D14, D15): a backend read is answered by a free value; a sentinel
read returns its byte without a call. -/
def Obligations.BackendReadEffects : Prop :=
  ∀ (s : State) (off : Nat) (b : Byte),
    exec (.iorBackend off) s = .next (s.afterDraw s.ctl
      [.emit .hold, .backendRead off (Config.freeByte s.draws), .emit (.doneData (Config.freeByte s.draws))]) ∧
    exec (.iorBackendSentinel off b) s = .next (s.after s.ctl [.emit .hold, .emit (.doneData b)])

/-- R128, R135 (spec/40): an access to an unmapped port pushes `Done` with no data, changes nothing and makes no call. -/
def Obligations.UnmappedClassesOnlyRelease : Prop :=
  ∀ (s : State) (p : Port) (v : Byte),
    exec (.iowUnmapped p v) s = .next (s.after s.ctl [.emit .done]) ∧
    exec (.iorUnmapped p) s = .next (s.after s.ctl [.emit .done])

/-- Spec/30 section 4 and spec/41 section 1: a class does exactly what the operation row does that the second-level decode
gives in its state. That a row stands for the whole bus cycle of its class is the model's choice (log entry 11). -/
def Obligations.ClassRunsItsOperation : Prop :=
  ∀ (i : Instr) (s : State), exec (refine s.cfg s.ctl.controlActive s.ctl.selectedRegister i) s = exec i s

/-! ## The machine as a whole -/

/-- Spec/40 section 1: a dispatch call always completes, and its trace holds exactly one terminal response, preceded by at most one
`Hold`. A fast path pushes it before any work. The statement covers the operation rows too, of which spec/41 section 1 says that
they push no response: that a row carries the responses of its class is the model's choice (log entry 11). -/
def Obligations.ExactlyOneTerminalResponse : Prop :=
  ∀ (i : Instr) (s : State), ∃ (t : State) (effs : List Effect),
    exec i s = .next t ∧ t.trace = s.trace ++ effs ∧ OneTerminal effs

/-- Spec/10 section 7: the protocol's invariants, and that the base port is a committed value, hold after reset in every
configuration. -/
def Obligations.InvariantsHoldAtReset : Prop :=
  ∀ cfg : Config, (State.resetWith cfg).ProtocolInv ∧ (State.resetWith cfg).BaseCommitted

/-- Spec/10 sections 2 and 7: every step keeps the invariants of the Control State, from every state that meets them. -/
def Obligations.EveryStepKeepsProtocolInv : Prop :=
  ∀ s t : State, s.ProtocolInv → step s = .next t → t.ProtocolInv

/-- Spec/20 sections 4 and 5 (D35): every step keeps the base port among the values committed whole, so that no reader can see
a torn one. The list of committed values is read off the trace (log entry 16). -/
def Obligations.EveryStepKeepsBaseCommitted : Prop :=
  ∀ s t : State, s.BaseCommitted → step s = .next t → t.BaseCommitted

/-- Spec/10 section 2 and check N-4 of spec/95 (D9): without a reset nothing takes the block out of update mode. -/
def Obligations.UpdateModeIrreversible : Prop :=
  ∀ s t : State, s.resetPending = false → s.ctl.firmwareUpdateActive = true → step s = .next t →
    t.ctl.firmwareUpdateActive = true

/-- Check N-2 of spec/95: no transaction while locked changes anything of the Control State but `control_active` and the
string cursor. -/
def Obligations.LockedStepProtectsState : Prop :=
  ∀ s t : State, s.resetPending = false → s.ctl.controlActive = false → step s = .next t →
    t.ctl = { s.ctl with controlActive := t.ctl.controlActive, stringCursor := t.ctl.stringCursor }

/-- Spec/10 section 2, control_active: without a reset it is set only by a write of 0xCC to the control port, and cleared only
by a select of an index outside RECOGNIZED. -/
def Obligations.ControlActiveWriters : Prop :=
  ∀ s t : State, s.resetPending = false → step s = .next t →
    (s.ctl.controlActive = false → t.ctl.controlActive = true →
      ∃ u : State, s.popEvent = some (.iow s.cfg.controlPort 0xCC, u)) ∧
    (s.ctl.controlActive = true → t.ctl.controlActive = false →
      ∃ (v : Byte) (u : State), s.popEvent = some (.iow s.cfg.controlPort v, u) ∧ v ≠ 0xCC ∧
        s.cfg.recognized v = false)

/-- Spec/10 section 2, base_port and base_port_staging_low, with spec/41 section 4 (D4, D6): without a reset the base port changes
only by a high write, and the staging byte only by a low write, of register 0x04 while unlocked. That nothing else, a select or a
commit, changes the staging byte is D6 (log entry 18). -/
def Obligations.BasePortWriters : Prop :=
  ∀ s t : State, s.resetPending = false → step s = .next t →
    (t.ctl.basePort ≠ s.ctl.basePort → s.ctl.controlActive = true ∧ s.ctl.selectedRegister = 0x04 ∧
      ∃ (v : Byte) (u : State), s.popEvent = some (.iow s.cfg.dataHighPort v, u)) ∧
    (t.ctl.basePortStagingLow ≠ s.ctl.basePortStagingLow →
      s.ctl.controlActive = true ∧ s.ctl.selectedRegister = 0x04 ∧
      ∃ u : State, s.popEvent = some (.iow s.cfg.dataLowPort t.ctl.basePortStagingLow, u))

/-- Spec/41 section 7: a read changes no field of the Control State but the string cursor. Spec/10 section 2, string_cursor, and
spec/41 section 5, RDHI_STRING and RDLO_OTHER (D4; log entry 18): and that only at the data-port-high with register 0x02
selected. -/
def Obligations.ReadsChangeOnlyTheCursor : Prop :=
  ∀ (s t u : State) (p : Port), s.resetPending = false → s.popEvent = some (.ior p, u) → step s = .next t →
    t.ctl = { s.ctl with stringCursor := t.ctl.stringCursor } ∧
    (t.ctl.stringCursor ≠ s.ctl.stringCursor → p = s.cfg.dataHighPort ∧ s.ctl.selectedRegister = 0x02)

/-- Spec/00 section 3: the configuration is fixed, so no step writes it. R14 gives each dispatch call its own trace; that a step,
an external reset included, only appends to one trace in State is the model's choice (log entries 6 and 9). -/
def Obligations.ConfigurationIsFixed : Prop :=
  ∀ s t : State, step s = .next t → t.cfg = s.cfg ∧ ∃ effs : List Effect, t.trace = s.trace ++ effs

/-- Spec/41 section 3, select idempotence: a second select of the same index leaves the Control State as the first left it and
makes no call. -/
def Obligations.SelectIsIdempotent : Prop :=
  ∀ (s t : State) (v : Byte), exec (.iowSelect v) s = .next t →
    exec (.iowSelect v) t = .next (t.after t.ctl [.emit .hold, .emit .done])

/-- W4 of spec/95 (D4, D21): with register 0x02 selected and the cursor at 0, L + 1 high reads return the identity string in
order and then 0x00, and leave the cursor at 0 again. -/
def Obligations.StringStreamsInOrder : Prop :=
  ∀ s : State, s.cfg.wf = true → s.resetPending = false → s.ctl.selectedRegister = 0x02 → s.ctl.stringCursor = 0 →
    s.iowQueue = [] → s.iorQueue = List.replicate (s.cfg.idString.length + 1) s.cfg.dataHighPort →
    Host.Core.run Sys2Proof.core (s.cfg.idString.length + 1) s = .next { s with
      iorQueue := []
      trace := s.trace ++ (s.cfg.idString ++ [0x00]).flatMap fun b => [.emit .hold, .emit (.doneData b)] }

/-- Spec/30 section 6 and W3 of spec/95, with spec/20 section 5 (D17): the assembler form SETBASE p, issued by the host to an
unlocked block, leaves the base port at p. Each of its three transactions takes two steps: the host issues it, the block
dispatches it. That these are two steps is the model's choice (log entry 17). -/
def Obligations.SetBaseMovesTheRegion : Prop :=
  ∀ (s : State) (p : Word16), s.cfg.wf = true → s.resetPending = false → s.ctl.controlActive = true →
    s.iowQueue = [] → s.iorQueue = [] → s.hostProgram = [] →
    Host.Core.run Sys2Proof.core 6 (s.request ((Asm.setBase p).expand s.cfg)) = .next (s.after
      { s.ctl with selectedRegister := 0x04, basePortStagingLow := lowHalf p, basePort := p }
      [.emit .hold, .emit .done, .emit .done, .emit .done, .backendRebase p])

/-- Spec/40 section 4 (D24): no read depends on `control_active`. -/
def Obligations.ReadsIgnoreControlActive : Prop :=
  ∀ (s t : State) (p : Port) (b : Bool), exec (decodeIor s.cfg s.ctl.basePort p) s = .next t →
    exec (decodeIor s.cfg s.ctl.basePort p) (s.setCtl { s.ctl with controlActive := b }) =
      .next (t.setCtl { t.ctl with controlActive := b })

/-- Spec/40 section 4 (D10): no transaction but a select of 0xFF depends on `firmware_update_active`. -/
def Obligations.UpdateFlagRoutesNothing : Prop :=
  ∀ (s t : State) (tx : Transaction) (b : Bool), tx ≠ .iow s.cfg.controlPort 0xFF →
    exec (decode s.cfg s.ctl.basePort tx) s = .next t →
    exec (decode s.cfg s.ctl.basePort tx) (s.setCtl { s.ctl with firmwareUpdateActive := b }) =
      .next (t.setCtl { t.ctl with firmwareUpdateActive := b })

/-- Check N-6 of spec/95: no read returns or depends on the staging byte. -/
def Obligations.ReadsIgnoreStagingByte : Prop :=
  ∀ (s t : State) (p : Port) (b : Byte), exec (decodeIor s.cfg s.ctl.basePort p) s = .next t →
    exec (decodeIor s.cfg s.ctl.basePort p) (s.setCtl { s.ctl with basePortStagingLow := b }) =
      .next (t.setCtl { t.ctl with basePortStagingLow := b })

/-- Spec/60 section 1, M4, with the region test of D13 written out: an access to a port outside the control ports and outside
the region is a no-op that releases the bus. -/
def Obligations.UnmappedPortIsNoOp : Prop :=
  ∀ (s : State) (p : Port), s.cfg.wf = true → s.resetPending = false → p ∉ s.cfg.ctrlPorts →
    (∀ e ∈ s.cfg.region, p.toNat ≠ s.ctl.basePort.toNat + e.off) →
    (∀ (v : Byte) (ws : List IowEvent), s.iowQueue = { port := p, data := v } :: ws → s.iorQueue = [] →
      step s = .next { s with iowQueue := ws, trace := s.trace ++ [.emit .done] }) ∧
    (∀ rs : List Port, s.iowQueue = [] → s.iorQueue = p :: rs →
      step s = .next { s with iorQueue := rs, trace := s.trace ++ [.emit .done] })

/-- Spec/60 section 1, M5 (D22): a backend's queue stays bounded, and a write to a full queue drops the arriving entry or the
oldest one, as P_QUEUE_OVERFLOW says. -/
def Obligations.BackendQueueStaysBounded : Prop :=
  ∀ (cfg : Config) (cap : Nat) (q : List (Nat × Byte)) (off : Nat) (v : Byte), q.length ≤ cap →
    (backendQueueAfter cfg cap q off v).length ≤ cap ∧
    (q.length < cap → backendQueueAfter cfg cap q off v = q ++ [(off, v)]) ∧
    (q.length = cap → cfg.queueOverflow = .dropNewest → backendQueueAfter cfg cap q off v = q) ∧
    (q.length = cap → 0 < cap → cfg.queueOverflow = .overwriteOldest →
      backendQueueAfter cfg cap q off v = q.tail ++ [(off, v)])

/-- Spec/20 section 5 and spec/60 section 4 (D35): a read by Context B returns the value `base_port` held when the read began, or
one it was given since, each whole, and changes nothing but its own record and the count of free values. A step adds at most one
value, the one it gives `base_port`; a reset between is one (log entry 16). -/
def Obligations.ContextBSeesCommittedBase : Prop :=
  (∀ s : State, s.beginContextBRead.contextBCandidates = [s.ctl.basePort] ∧ s.beginContextBRead.ContextBMarked ∧
    { s.beginContextBRead with contextB := s.contextB } = s) ∧
  (∀ s t : State, s.ContextBMarked → s.contextB ≠ none → step s = .next t →
    t.ContextBMarked ∧ t.contextB ≠ none ∧
    ((t.contextBCandidates = s.contextBCandidates ∧ t.ctl.basePort = s.ctl.basePort) ∨
      t.contextBCandidates = s.contextBCandidates ++ [t.ctl.basePort])) ∧
  (∀ s : State, (contextBRead s).1 ∈ s.contextBCandidates ∧
    (contextBRead s).2 = { s with contextB := none, draws := s.draws + 1 })

/-- Spec/20 section 5 and spec/70 section 3 (D17): the host issues a transaction only when it waits for no response, so at most
one is outstanding, and its transactions are dispatched one at a time in the order in which it issues them. That issuing is a
step of its own is the model's choice (log entry 17). -/
def Obligations.HostTransactionsRunInIssueOrder : Prop :=
  (∀ (s : State) (tx : Transaction) (rest : List Transaction), s.cfg.wf = true → s.resetPending = false →
    s.hostWaiting = false → s.hostProgram = tx :: rest → step s = .next ({ s with hostProgram := rest }.deliver tx)) ∧
  (∀ s t : State, s.hostWaiting = true → step s = .next t → t.hostProgram = s.hostProgram) ∧
  (∀ s t : State, s.OneOutstanding → step s = .next t → t.OneOutstanding) ∧
  (∀ s : State, s.cfg.wf = true → s.resetPending = false → s.hostWaiting = false →
    Host.Core.run Sys2Proof.core (2 * s.hostProgram.length) s = dispatchAll s.hostProgram { s with hostProgram := [] })
end

