-- ==== Sys2Proof/Laws/OpCodes.lean ====
section
/-!
SUPPORT. The second-level operation codes of R101, each function's table as one lemma.
-/

namespace Sys2Proof

/-- An index is recognized exactly if it is a fixed one or a tuning register (R17). -/
theorem Config.recognized_iff (cfg : Config) (v : Byte) :
    cfg.recognized v = true ↔
      v = regMagic ∨ v = regVersion ∨ v = regString ∨ v = regType ∨ v = regBase ∨ v = regFirmware ∨ v ∈ cfg.tuningRegs := by
  simp [Config.recognized, or_assoc]

/-- The table of the selects. -/
theorem Config.selectOp_cases (cfg : Config) (v : Byte) :
    (v = regMagic ∧ cfg.selectOp v = .magic) ∨ (v = regVersion ∧ cfg.selectOp v = .version) ∨
    (v = regString ∧ cfg.selectOp v = .string) ∨ (v = regType ∧ cfg.selectOp v = .type) ∨
    (v = regBase ∧ cfg.selectOp v = .base) ∨ (v = regFirmware ∧ cfg.selectOp v = .firmware) ∨
    ((v ≠ regString ∧ v ≠ regFirmware) ∧ v ∈ cfg.tuningRegs ∧ cfg.selectOp v = .tuning) ∨
    ((v ≠ regString ∧ v ≠ regFirmware) ∧ cfg.recognized v = false ∧ cfg.selectOp v = .unrecognized) := by
  unfold Config.selectOp
  by_cases h0 : v = regMagic
  · exact .inl ⟨h0, if_pos h0⟩
  by_cases h1 : v = regVersion
  · exact .inr (.inl ⟨h1, by rw [if_neg h0, if_pos h1]⟩)
  by_cases h2 : v = regString
  · exact .inr (.inr (.inl ⟨h2, by rw [if_neg h0, if_neg h1, if_pos h2]⟩))
  by_cases h3 : v = regType
  · exact .inr (.inr (.inr (.inl ⟨h3, by rw [if_neg h0, if_neg h1, if_neg h2, if_pos h3]⟩)))
  by_cases h4 : v = regBase
  · exact .inr (.inr (.inr (.inr (.inl ⟨h4, by rw [if_neg h0, if_neg h1, if_neg h2, if_neg h3, if_pos h4]⟩))))
  rw [if_neg h0, if_neg h1, if_neg h2, if_neg h3, if_neg h4]
  by_cases h5 : v = regFirmware
  · exact .inr (.inr (.inr (.inr (.inr (.inl ⟨h5, if_pos h5⟩)))))
  rw [if_neg h5]
  by_cases h6 : v ∈ cfg.tuningRegs
  · exact .inr (.inr (.inr (.inr (.inr (.inr (.inl ⟨⟨h2, h5⟩, h6, if_pos h6⟩))))))
  · refine .inr (.inr (.inr (.inr (.inr (.inr (.inr ⟨⟨h2, h5⟩, ?_, if_neg h6⟩))))))
    rw [← Bool.not_eq_true, cfg.recognized_iff]
    tauto

/-- The table of the high writes. -/
theorem Config.writeHighOp_cases (cfg : Config) (r : Byte) :
    (r = regBase ∧ cfg.writeHighOp r = .base) ∨ (r = regFirmware ∧ cfg.writeHighOp r = .firmware) ∨
    (r ∈ ([regMagic, regVersion, regString, regType] : List Byte) ∧ cfg.writeHighOp r = .ignored) ∨
    (r ≠ regFirmware ∧ r ∈ cfg.tuningRegs ∧ cfg.writeHighOp r = .tuning) ∨
    (r ≠ regFirmware ∧ cfg.recognized r = false ∧ cfg.writeHighOp r = .unrecognized) := by
  unfold Config.writeHighOp
  by_cases h4 : r = regBase
  · exact .inl ⟨h4, if_pos h4⟩
  by_cases h5 : r = regFirmware
  · exact .inr (.inl ⟨h5, by rw [if_neg h4, if_pos h5]⟩)
  rw [if_neg h4, if_neg h5]
  by_cases h0 : r ∈ ([regMagic, regVersion, regString, regType] : List Byte)
  · exact .inr (.inr (.inl ⟨h0, if_pos h0⟩))
  rw [if_neg h0]
  by_cases h6 : r ∈ cfg.tuningRegs
  · exact .inr (.inr (.inr (.inl ⟨h5, h6, if_pos h6⟩)))
  · refine .inr (.inr (.inr (.inr ⟨h5, ?_, if_neg h6⟩)))
    simp only [List.mem_cons, List.not_mem_nil, or_false] at h0
    rw [← Bool.not_eq_true, cfg.recognized_iff]
    tauto

/-- The table of the high reads is that of the selects. -/
theorem Config.readHighOp_cases (cfg : Config) (r : Byte) :
    (r = regMagic ∧ cfg.readHighOp r = .magic) ∨ (r = regVersion ∧ cfg.readHighOp r = .version) ∨
    (r = regString ∧ cfg.readHighOp r = .string) ∨ (r = regType ∧ cfg.readHighOp r = .type) ∨
    (r = regBase ∧ cfg.readHighOp r = .base) ∨ (r = regFirmware ∧ cfg.readHighOp r = .firmware) ∨
    ((r ≠ regString ∧ r ≠ regFirmware) ∧ r ∈ cfg.tuningRegs ∧ cfg.readHighOp r = .tuning) ∨
    ((r ≠ regString ∧ r ≠ regFirmware) ∧ cfg.recognized r = false ∧ cfg.readHighOp r = .unrecognized) := by
  unfold Config.readHighOp
  by_cases h0 : r = regMagic
  · exact .inl ⟨h0, if_pos h0⟩
  by_cases h1 : r = regVersion
  · exact .inr (.inl ⟨h1, by rw [if_neg h0, if_pos h1]⟩)
  by_cases h2 : r = regString
  · exact .inr (.inr (.inl ⟨h2, by rw [if_neg h0, if_neg h1, if_pos h2]⟩))
  by_cases h3 : r = regType
  · exact .inr (.inr (.inr (.inl ⟨h3, by rw [if_neg h0, if_neg h1, if_neg h2, if_pos h3]⟩)))
  by_cases h4 : r = regBase
  · exact .inr (.inr (.inr (.inr (.inl ⟨h4, by rw [if_neg h0, if_neg h1, if_neg h2, if_neg h3, if_pos h4]⟩))))
  rw [if_neg h0, if_neg h1, if_neg h2, if_neg h3, if_neg h4]
  by_cases h5 : r = regFirmware
  · exact .inr (.inr (.inr (.inr (.inr (.inl ⟨h5, if_pos h5⟩)))))
  rw [if_neg h5]
  by_cases h6 : r ∈ cfg.tuningRegs
  · exact .inr (.inr (.inr (.inr (.inr (.inr (.inl ⟨⟨h2, h5⟩, h6, if_pos h6⟩))))))
  · refine .inr (.inr (.inr (.inr (.inr (.inr (.inr ⟨⟨h2, h5⟩, ?_, if_neg h6⟩))))))
    rw [← Bool.not_eq_true, cfg.recognized_iff]
    tauto

/-- A tuning register is none of the fixed indices (R9). -/
theorem Config.tuning_not_fixed (cfg : Config) (h : cfg.wf = true) (r : Byte) (hr : r ∈ cfg.tuningRegs) :
    r ≠ regMagic ∧ r ≠ regVersion ∧ r ≠ regString ∧ r ≠ regType ∧ r ≠ regBase ∧ r ≠ unlockByte ∧ r ≠ regFirmware := by
  have ht : cfg.tuningDisjoint = true := by
    simp only [Config.wf, Bool.and_eq_true] at h
    exact h.1.1.1.2
  simp only [Config.tuningDisjoint, List.all_cons, List.all_nil, Bool.and_true, Bool.and_eq_true, Bool.not_eq_true',
    decide_eq_false_iff_not] at ht
  obtain ⟨h0, h1, h2, h3, h4, hc, hf⟩ := ht
  refine ⟨?_, ?_, ?_, ?_, ?_, ?_, ?_⟩ <;> rintro rfl <;> contradiction

/-- The three control ports of a well-formed configuration are distinct (R9). -/
theorem Config.ports_ne (cfg : Config) (h : cfg.wf = true) :
    cfg.controlPort ≠ cfg.dataLowPort ∧ cfg.controlPort ≠ cfg.dataHighPort ∧ cfg.dataLowPort ≠ cfg.dataHighPort := by
  simp only [Config.wf, Config.portsDistinct, Bool.and_eq_true, bne_iff_ne, ne_eq] at h
  exact ⟨h.1.1.1.1.1.1, h.1.1.1.1.1.2, h.1.1.1.1.2⟩

/-- A region lookup gives the entry of the very offset asked for. -/
theorem Config.entryAt_off (cfg : Config) (off : Nat) (e : RegionEntry) (h : cfg.entryAt off = some e) :
    e ∈ cfg.region ∧ e.off = off := by
  unfold Config.entryAt at h
  exact ⟨List.mem_of_find?_eq_some h, by simpa using List.find?_some h⟩

/-- The region test in the terms of R98. -/
theorem Config.offset?_eq_some (cfg : Config) (base : Word16) (p : Port) (off : Nat) :
    cfg.offset? base p = some off ↔ p.toNat = base.toNat + off ∧ cfg.hasOffset off = true := by
  unfold Config.offset?
  constructor
  · intro h
    split at h
    · split at h
      · cases h
        exact ⟨by omega, ‹_›⟩
      · cases h
    · cases h
  · rintro ⟨hp, ho⟩
    have hd : p.toNat - base.toNat = off := by omega
    rw [if_pos (by omega), hd, if_pos ho]

/-- A port with no offset in the region. -/
theorem Config.offset?_eq_none (cfg : Config) (base : Word16) (p : Port) :
    cfg.offset? base p = none ↔ ∀ off, p.toNat = base.toNat + off → cfg.hasOffset off = false := by
  constructor
  · intro h off hp
    by_contra hc
    have := (cfg.offset?_eq_some base p off).2 ⟨hp, by simpa using hc⟩
    simp [h] at this
  · intro h
    cases hx : cfg.offset? base p with
    | none => rfl
    | some off =>
      have := (cfg.offset?_eq_some base p off).1 hx
      simp [h off this.1] at this

end Sys2Proof
end

