-- ==== Sys2Proof/Laws/State.lean ====
section
/-!
SUPPORT. One lemma per field per update of the state, each true by computation, so that no proof unfolds a record update.
-/

namespace Sys2Proof.Machine

@[simp] theorem State.push_cfg (s : State) (e : Effect) : (s.push e).cfg = s.cfg := rfl
@[simp] theorem State.push_ctl (s : State) (e : Effect) : (s.push e).ctl = s.ctl := rfl
@[simp] theorem State.push_iowQueue (s : State) (e : Effect) : (s.push e).iowQueue = s.iowQueue := rfl
@[simp] theorem State.push_iorQueue (s : State) (e : Effect) : (s.push e).iorQueue = s.iorQueue := rfl
@[simp] theorem State.push_hostProgram (s : State) (e : Effect) : (s.push e).hostProgram = s.hostProgram := rfl
@[simp] theorem State.push_contextB (s : State) (e : Effect) : (s.push e).contextB = s.contextB := rfl
@[simp] theorem State.push_trace (s : State) (e : Effect) : (s.push e).trace = s.trace ++ [e] := rfl
@[simp] theorem State.push_draws (s : State) (e : Effect) : (s.push e).draws = s.draws := rfl
@[simp] theorem State.push_resetPending (s : State) (e : Effect) : (s.push e).resetPending = s.resetPending := rfl

@[simp] theorem State.emit_cfg (s : State) (r : Response) : (s.emit r).cfg = s.cfg := rfl
@[simp] theorem State.emit_ctl (s : State) (r : Response) : (s.emit r).ctl = s.ctl := rfl
@[simp] theorem State.emit_iowQueue (s : State) (r : Response) : (s.emit r).iowQueue = s.iowQueue := rfl
@[simp] theorem State.emit_iorQueue (s : State) (r : Response) : (s.emit r).iorQueue = s.iorQueue := rfl
@[simp] theorem State.emit_hostProgram (s : State) (r : Response) : (s.emit r).hostProgram = s.hostProgram := rfl
@[simp] theorem State.emit_contextB (s : State) (r : Response) : (s.emit r).contextB = s.contextB := rfl
@[simp] theorem State.emit_trace (s : State) (r : Response) : (s.emit r).trace = s.trace ++ [.emit r] := rfl
@[simp] theorem State.emit_draws (s : State) (r : Response) : (s.emit r).draws = s.draws := rfl
@[simp] theorem State.emit_resetPending (s : State) (r : Response) : (s.emit r).resetPending = s.resetPending := rfl

@[simp] theorem State.setCtl_cfg (s : State) (c : ControlState) : (s.setCtl c).cfg = s.cfg := rfl
@[simp] theorem State.setCtl_ctl (s : State) (c : ControlState) : (s.setCtl c).ctl = c := rfl
@[simp] theorem State.setCtl_iowQueue (s : State) (c : ControlState) : (s.setCtl c).iowQueue = s.iowQueue := rfl
@[simp] theorem State.setCtl_iorQueue (s : State) (c : ControlState) : (s.setCtl c).iorQueue = s.iorQueue := rfl
@[simp] theorem State.setCtl_hostProgram (s : State) (c : ControlState) : (s.setCtl c).hostProgram = s.hostProgram := rfl
@[simp] theorem State.setCtl_contextB (s : State) (c : ControlState) : (s.setCtl c).contextB = s.contextB := rfl
@[simp] theorem State.setCtl_trace (s : State) (c : ControlState) : (s.setCtl c).trace = s.trace := rfl
@[simp] theorem State.setCtl_draws (s : State) (c : ControlState) : (s.setCtl c).draws = s.draws := rfl
@[simp] theorem State.setCtl_resetPending (s : State) (c : ControlState) : (s.setCtl c).resetPending = s.resetPending := rfl

@[simp] theorem State.advanceDraw_cfg (s : State) : (s.advanceDraw).cfg = s.cfg := rfl
@[simp] theorem State.advanceDraw_ctl (s : State) : (s.advanceDraw).ctl = s.ctl := rfl
@[simp] theorem State.advanceDraw_iowQueue (s : State) : (s.advanceDraw).iowQueue = s.iowQueue := rfl
@[simp] theorem State.advanceDraw_iorQueue (s : State) : (s.advanceDraw).iorQueue = s.iorQueue := rfl
@[simp] theorem State.advanceDraw_hostProgram (s : State) : (s.advanceDraw).hostProgram = s.hostProgram := rfl
@[simp] theorem State.advanceDraw_contextB (s : State) : (s.advanceDraw).contextB = s.contextB := rfl
@[simp] theorem State.advanceDraw_trace (s : State) : (s.advanceDraw).trace = s.trace := rfl
@[simp] theorem State.advanceDraw_draws (s : State) : (s.advanceDraw).draws = s.draws + 1 := rfl
@[simp] theorem State.advanceDraw_resetPending (s : State) : (s.advanceDraw).resetPending = s.resetPending := rfl

@[simp] theorem State.after_cfg (s : State) (c : ControlState) (effs : List Effect) : (s.after c effs).cfg = s.cfg := rfl
@[simp] theorem State.after_ctl (s : State) (c : ControlState) (effs : List Effect) : (s.after c effs).ctl = c := rfl
@[simp] theorem State.after_iowQueue (s : State) (c : ControlState) (effs : List Effect) : (s.after c effs).iowQueue = s.iowQueue := rfl
@[simp] theorem State.after_iorQueue (s : State) (c : ControlState) (effs : List Effect) : (s.after c effs).iorQueue = s.iorQueue := rfl
@[simp] theorem State.after_hostProgram (s : State) (c : ControlState) (effs : List Effect) : (s.after c effs).hostProgram = s.hostProgram := rfl
@[simp] theorem State.after_contextB (s : State) (c : ControlState) (effs : List Effect) : (s.after c effs).contextB = s.contextB := rfl
@[simp] theorem State.after_trace (s : State) (c : ControlState) (effs : List Effect) : (s.after c effs).trace = s.trace ++ effs := rfl
@[simp] theorem State.after_draws (s : State) (c : ControlState) (effs : List Effect) : (s.after c effs).draws = s.draws := rfl
@[simp] theorem State.after_resetPending (s : State) (c : ControlState) (effs : List Effect) : (s.after c effs).resetPending = s.resetPending := rfl

@[simp] theorem State.afterDraw_cfg (s : State) (c : ControlState) (effs : List Effect) : (s.afterDraw c effs).cfg = s.cfg := rfl
@[simp] theorem State.afterDraw_ctl (s : State) (c : ControlState) (effs : List Effect) : (s.afterDraw c effs).ctl = c := rfl
@[simp] theorem State.afterDraw_iowQueue (s : State) (c : ControlState) (effs : List Effect) : (s.afterDraw c effs).iowQueue = s.iowQueue := rfl
@[simp] theorem State.afterDraw_iorQueue (s : State) (c : ControlState) (effs : List Effect) : (s.afterDraw c effs).iorQueue = s.iorQueue := rfl
@[simp] theorem State.afterDraw_hostProgram (s : State) (c : ControlState) (effs : List Effect) : (s.afterDraw c effs).hostProgram = s.hostProgram := rfl
@[simp] theorem State.afterDraw_contextB (s : State) (c : ControlState) (effs : List Effect) : (s.afterDraw c effs).contextB = s.contextB := rfl
@[simp] theorem State.afterDraw_trace (s : State) (c : ControlState) (effs : List Effect) : (s.afterDraw c effs).trace = s.trace ++ effs := rfl
@[simp] theorem State.afterDraw_draws (s : State) (c : ControlState) (effs : List Effect) : (s.afterDraw c effs).draws = s.draws + 1 := rfl
@[simp] theorem State.afterDraw_resetPending (s : State) (c : ControlState) (effs : List Effect) : (s.afterDraw c effs).resetPending = s.resetPending := rfl

@[simp] theorem State.requestReset_cfg (s : State) : (s.requestReset).cfg = s.cfg := rfl
@[simp] theorem State.requestReset_ctl (s : State) : (s.requestReset).ctl = s.ctl := rfl
@[simp] theorem State.requestReset_iowQueue (s : State) : (s.requestReset).iowQueue = s.iowQueue := rfl
@[simp] theorem State.requestReset_iorQueue (s : State) : (s.requestReset).iorQueue = s.iorQueue := rfl
@[simp] theorem State.requestReset_hostProgram (s : State) : (s.requestReset).hostProgram = s.hostProgram := rfl
@[simp] theorem State.requestReset_contextB (s : State) : (s.requestReset).contextB = s.contextB := rfl
@[simp] theorem State.requestReset_trace (s : State) : (s.requestReset).trace = s.trace := rfl
@[simp] theorem State.requestReset_draws (s : State) : (s.requestReset).draws = s.draws := rfl
@[simp] theorem State.requestReset_resetPending (s : State) : (s.requestReset).resetPending = true := rfl

@[simp] theorem State.externalReset_cfg (s : State) : (s.externalReset).cfg = s.cfg := rfl
@[simp] theorem State.externalReset_ctl (s : State) : (s.externalReset).ctl = ControlState.resetWith s.cfg := rfl
@[simp] theorem State.externalReset_iowQueue (s : State) : (s.externalReset).iowQueue = [] := rfl
@[simp] theorem State.externalReset_iorQueue (s : State) : (s.externalReset).iorQueue = [] := rfl
@[simp] theorem State.externalReset_hostProgram (s : State) : (s.externalReset).hostProgram = s.hostProgram := rfl
@[simp] theorem State.externalReset_contextB (s : State) :
    (s.externalReset).contextB = s.contextB.map fun r => r.throughReset s.trace s.cfg.defaultBasePort := rfl
@[simp] theorem State.externalReset_trace (s : State) : (s.externalReset).trace = s.trace := rfl
@[simp] theorem State.externalReset_draws (s : State) : (s.externalReset).draws = s.draws := rfl
@[simp] theorem State.externalReset_resetPending (s : State) : (s.externalReset).resetPending = false := rfl

@[simp] theorem State.request_cfg (s : State) (txs : List Transaction) : (s.request txs).cfg = s.cfg := rfl
@[simp] theorem State.request_ctl (s : State) (txs : List Transaction) : (s.request txs).ctl = s.ctl := rfl
@[simp] theorem State.request_iowQueue (s : State) (txs : List Transaction) : (s.request txs).iowQueue = s.iowQueue := rfl
@[simp] theorem State.request_iorQueue (s : State) (txs : List Transaction) : (s.request txs).iorQueue = s.iorQueue := rfl
@[simp] theorem State.request_hostProgram (s : State) (txs : List Transaction) :
    (s.request txs).hostProgram = s.hostProgram ++ txs := rfl
@[simp] theorem State.request_contextB (s : State) (txs : List Transaction) : (s.request txs).contextB = s.contextB := rfl
@[simp] theorem State.request_trace (s : State) (txs : List Transaction) : (s.request txs).trace = s.trace := rfl
@[simp] theorem State.request_draws (s : State) (txs : List Transaction) : (s.request txs).draws = s.draws := rfl
@[simp] theorem State.request_resetPending (s : State) (txs : List Transaction) :
    (s.request txs).resetPending = s.resetPending := rfl

@[simp] theorem State.beginContextBRead_cfg (s : State) : s.beginContextBRead.cfg = s.cfg := rfl
@[simp] theorem State.beginContextBRead_ctl (s : State) : s.beginContextBRead.ctl = s.ctl := rfl
@[simp] theorem State.beginContextBRead_iowQueue (s : State) : s.beginContextBRead.iowQueue = s.iowQueue := rfl
@[simp] theorem State.beginContextBRead_iorQueue (s : State) : s.beginContextBRead.iorQueue = s.iorQueue := rfl
@[simp] theorem State.beginContextBRead_hostProgram (s : State) : s.beginContextBRead.hostProgram = s.hostProgram := rfl
@[simp] theorem State.beginContextBRead_contextB (s : State) :
    s.beginContextBRead.contextB = some { first := s.ctl.basePort, later := [], mark := s.trace.length } := rfl
@[simp] theorem State.beginContextBRead_trace (s : State) : s.beginContextBRead.trace = s.trace := rfl
@[simp] theorem State.beginContextBRead_draws (s : State) : s.beginContextBRead.draws = s.draws := rfl
@[simp] theorem State.beginContextBRead_resetPending (s : State) : s.beginContextBRead.resetPending = s.resetPending := rfl

@[simp] theorem State.ask_answer (s : State) (call : Byte → Effect) : (s.ask call).1 = Config.freeByte s.draws := rfl
@[simp] theorem State.ask_state (s : State) (call : Byte → Effect) :
    (s.ask call).2 = s.advanceDraw.push (call (Config.freeByte s.draws)) := rfl

/-- Two appended groups of effects are one. -/
@[simp] theorem State.after_after (s : State) (c d : ControlState) (xs ys : List Effect) :
    (s.after c xs).after d ys = s.after d (xs ++ ys) := by
  simp [State.after]

/-- A pushed effect is a group of one. -/
theorem State.push_eq_after (s : State) (e : Effect) : s.push e = s.after s.ctl [e] := rfl

/-- A response is a group of one. -/
theorem State.emit_eq_after (s : State) (r : Response) : s.emit r = s.after s.ctl [.emit r] := rfl

/-- A changed Control State with no effect. -/
theorem State.setCtl_eq_after (s : State) (c : ControlState) : s.setCtl c = s.after c [] := by
  simp [State.setCtl, State.after]

/-- A call with an answer. -/
theorem State.ask_eq_afterDraw (s : State) (call : Byte → Effect) :
    s.ask call = (Config.freeByte s.draws, s.afterDraw s.ctl [call (Config.freeByte s.draws)]) := rfl

@[simp] theorem State.afterDraw_after (s : State) (c d : ControlState) (xs ys : List Effect) :
    (s.afterDraw c xs).after d ys = s.afterDraw d (xs ++ ys) := by
  simp [State.after, State.afterDraw]

@[simp] theorem State.after_afterDraw (s : State) (c d : ControlState) (xs ys : List Effect) :
    (s.after c xs).afterDraw d ys = s.afterDraw d (xs ++ ys) := by
  simp [State.after, State.afterDraw]

end Sys2Proof.Machine
end

