-- ==== Sys2Proof/Laws/Ops.lean ====
section
/-!
SUPPORT. One lemma per shared operation that says everything it can do: the response templates, the protocol's operations, the
queues. The provers cite these and unfold nothing.
-/

namespace Sys2Proof.Machine

/-! ## Templates, for an operation that appends `calls` and leaves the Control State `c` -/

/-- A control-port write. -/
theorem controlWrite_eq (s : State) (op : State → State) (c : ControlState) (calls : List Effect)
    (h : op (s.emit .hold) = (s.emit .hold).after c calls) :
    s.controlWrite op = s.after c (.emit .hold :: (calls ++ [.emit .done])) := by
  rw [State.controlWrite, h]
  simp [State.emit_eq_after]

/-- The gate while locked. -/
theorem whenUnlocked_locked (s : State) (op : State → State) (h : s.ctl.controlActive = false) :
    s.whenUnlocked op = s := by
  simp [State.whenUnlocked, h]

/-- The gate while unlocked. -/
theorem whenUnlocked_unlocked (s : State) (op : State → State) (h : s.ctl.controlActive = true) :
    s.whenUnlocked op = op s := by
  simp [State.whenUnlocked, h]

/-- A select while locked does nothing between its responses (R123). -/
theorem controlWrite_locked (s : State) (op : State → State) (h : s.ctl.controlActive = false) :
    s.controlWrite (fun t => t.whenUnlocked op) = s.after s.ctl [.emit .hold, .emit .done] :=
  controlWrite_eq s _ s.ctl [] (by rw [whenUnlocked_locked _ _ (by simpa using h)]; simp [State.emit_eq_after])

/-- A select while unlocked. -/
theorem controlWrite_unlocked (s : State) (op : State → State) (c : ControlState) (calls : List Effect)
    (hu : s.ctl.controlActive = true) (h : op (s.emit .hold) = (s.emit .hold).after c calls) :
    s.controlWrite (fun t => t.whenUnlocked op) = s.after c (.emit .hold :: (calls ++ [.emit .done])) :=
  controlWrite_eq s _ c calls (by rw [whenUnlocked_unlocked _ _ (by simpa using hu), h])

/-- The slow class of a data write (R105). -/
theorem slowDataWrite_iff (c : ControlState) : c.slowDataWrite = true ↔ c.selectedRegister = regFirmware := by
  rw [ControlState.slowDataWrite, beq_iff_eq]

/-- A dropped fast data write (R162). -/
theorem dataWrite_locked_fast (s : State) (op : State → State) (h : s.ctl.controlActive = false)
    (hs : s.ctl.selectedRegister ≠ regFirmware) : s.dataWrite op = s.after s.ctl [.emit .done] := by
  rw [State.dataWrite, if_neg (mt (slowDataWrite_iff _).1 hs), whenUnlocked_locked _ _ (by simpa using h)]
  rfl

/-- A dropped slow data write (R162). -/
theorem dataWrite_locked_slow (s : State) (op : State → State) (h : s.ctl.controlActive = false)
    (hs : s.ctl.selectedRegister = regFirmware) :
    s.dataWrite op = s.after s.ctl [.emit .hold, .emit .done] := by
  rw [State.dataWrite, if_pos ((slowDataWrite_iff _).2 hs), whenUnlocked_locked _ _ (by simpa using h)]
  simp [State.emit_eq_after]

/-- A fast data write while unlocked (R105): the response before the work. -/
theorem dataWrite_fast (s : State) (op : State → State) (c : ControlState) (calls : List Effect)
    (hu : s.ctl.controlActive = true) (hs : s.ctl.selectedRegister ≠ regFirmware)
    (h : op (s.emit .done) = (s.emit .done).after c calls) :
    s.dataWrite op = s.after c (.emit .done :: calls) := by
  rw [State.dataWrite, if_neg (mt (slowDataWrite_iff _).1 hs), whenUnlocked_unlocked _ _ (by simpa using hu), h]
  simp [State.emit_eq_after]

/-- A slow data write while unlocked (R105): the work between the two responses. -/
theorem dataWrite_slow (s : State) (op : State → State) (c : ControlState) (calls : List Effect)
    (hu : s.ctl.controlActive = true) (hs : s.ctl.selectedRegister = regFirmware)
    (h : op (s.emit .hold) = (s.emit .hold).after c calls) :
    s.dataWrite op = s.after c (.emit .hold :: (calls ++ [.emit .done])) := by
  rw [State.dataWrite, if_pos ((slowDataWrite_iff _).2 hs), whenUnlocked_unlocked _ _ (by simpa using hu), h]
  simp [State.emit_eq_after]

/-- A mapped read whose value needs no call. -/
theorem mappedRead_pure (s : State) (op : State → Byte × State) (b : Byte) (c : ControlState)
    (h : op (s.emit .hold) = (b, (s.emit .hold).after c [])) :
    s.mappedRead op = s.after c [.emit .hold, .emit (.doneData b)] := by
  rw [State.mappedRead, h]
  simp [State.emit_eq_after]

/-- A mapped read answered by a draw. -/
theorem mappedRead_ask (s : State) (op : State → Byte × State) (call : Byte → Effect)
    (h : op (s.emit .hold) = (s.emit .hold).ask call) :
    s.mappedRead op = s.afterDraw s.ctl
      [.emit .hold, call (Config.freeByte s.draws), .emit (.doneData (Config.freeByte s.draws))] := by
  rw [State.mappedRead, h]
  simp [State.ask_eq_afterDraw, State.emit_eq_after]

/-! ## What an operation of the protocol can do -/

/-- Every select does one of four things: it stores the index, and restarts the string, enters update mode or locks. -/
theorem select_cases (v : Byte) (s : State) :
    (s.cfg.recognized v = true ∧ v ≠ regString ∧ (v = regFirmware → s.ctl.firmwareUpdateActive = true) ∧
      select v s = s.after { s.ctl with selectedRegister := v } []) ∨
    (v = regString ∧ select v s = s.after { s.ctl with selectedRegister := v, stringCursor := 0 } []) ∨
    (v = regFirmware ∧ s.ctl.firmwareUpdateActive = false ∧
      select v s = s.after { s.ctl with selectedRegister := v, firmwareUpdateActive := true } [.updaterEnter]) ∨
    (s.cfg.recognized v = false ∧ v ≠ regString ∧ v ≠ regFirmware ∧
      select v s = s.after { s.ctl with selectedRegister := v, controlActive := false } []) := by
  unfold select
  rcases s.cfg.selectOp_cases v with ⟨rfl, h⟩ | ⟨rfl, h⟩ | ⟨rfl, h⟩ | ⟨rfl, h⟩ | ⟨rfl, h⟩ | ⟨rfl, h⟩ | ⟨hn, ht, h⟩ |
    ⟨hn, hr, h⟩ <;> rw [h]
  case inr.inr.inl => exact .inr (.inl ⟨rfl, State.setCtl_eq_after _ _⟩)
  case inr.inr.inr.inr.inr.inl =>
    cases hf : s.ctl.firmwareUpdateActive
    · refine .inr (.inr (.inl ⟨rfl, rfl, ?_⟩))
      simp [selectFirmware, hf, State.setCtl_eq_after, State.push_eq_after]
    · refine .inl ⟨rfl, by decide, fun _ => rfl, ?_⟩
      simp [selectFirmware, hf, storeIndex, State.setCtl_eq_after]
  case inr.inr.inr.inr.inr.inr.inl =>
    exact .inl ⟨(s.cfg.recognized_iff v).2 (by tauto), hn.1, fun e => absurd e hn.2, State.setCtl_eq_after _ _⟩
  case inr.inr.inr.inr.inr.inr.inr =>
    exact .inr (.inr (.inr ⟨hr, hn.1, hn.2, State.setCtl_eq_after _ _⟩))
  all_goals exact .inl ⟨rfl, by decide, fun e => absurd e (by decide), State.setCtl_eq_after _ _⟩

/-- Every low write latches the staging byte of register 0x04 or does nothing. -/
theorem writeLow_cases (v : Byte) (s : State) :
    (s.ctl.selectedRegister = regBase ∧ writeLow v s = s.after { s.ctl with basePortStagingLow := v } []) ∨
    (s.ctl.selectedRegister ≠ regBase ∧ writeLow v s = s) := by
  unfold writeLow writeLowOp
  by_cases h : s.ctl.selectedRegister = regBase
  · exact .inl ⟨h, by rw [if_pos h]; exact State.setCtl_eq_after _ _⟩
  · exact .inr ⟨h, by rw [if_neg h]; rfl⟩

/-- Every high write commits the base port, makes one call, or does nothing. -/
theorem writeHigh_cases (v : Byte) (s : State) :
    (s.ctl.selectedRegister = regBase ∧
      writeHigh v s = s.after { s.ctl with basePort := assembleBase v s.ctl.basePortStagingLow }
        [.backendRebase (assembleBase v s.ctl.basePortStagingLow)]) ∨
    (s.ctl.selectedRegister = regFirmware ∧ writeHigh v s = s.after s.ctl [.updaterByte v]) ∨
    (s.ctl.selectedRegister ≠ regFirmware ∧ s.ctl.selectedRegister ∈ s.cfg.tuningRegs ∧
      writeHigh v s = s.after s.ctl [.backendTune s.ctl.selectedRegister v]) ∨
    (s.ctl.selectedRegister ≠ regFirmware ∧ writeHigh v s = s) := by
  unfold writeHigh
  rcases s.cfg.writeHighOp_cases s.ctl.selectedRegister with ⟨hs, h⟩ | ⟨hs, h⟩ | ⟨hs, h⟩ | ⟨hn, hs, h⟩ | ⟨hn, hs, h⟩ <;> rw [h]
  · exact .inl ⟨hs, by simp [commitBase, State.setCtl_eq_after, State.push_eq_after]⟩
  · exact .inr (.inl ⟨hs, rfl⟩)
  · refine .inr (.inr (.inr ⟨fun e => ?_, rfl⟩))
    rw [e] at hs
    exact absurd hs (by decide)
  · exact .inr (.inr (.inl ⟨hn, hs, rfl⟩))
  · exact .inr (.inr (.inr ⟨hn, rfl⟩))

/-- Every high read answers a byte without a call and may move the cursor (register 0x02), or is answered by a draw. -/
theorem readHigh_cases (s : State) :
    (∃ b, s.ctl.selectedRegister ≠ regString ∧ readHigh s = (b, s)) ∨
    (s.ctl.selectedRegister = regString ∧ readHigh s = readString s) ∨
    (∃ call : Byte → Effect, s.ctl.selectedRegister ≠ regString ∧ (∀ b, (call b).isResponse = false) ∧
      (∀ b, (call b).rebased? = none) ∧ readHigh s = s.ask call) := by
  unfold readHigh
  rcases s.cfg.readHighOp_cases s.ctl.selectedRegister with ⟨hs, h⟩ | ⟨hs, h⟩ | ⟨hs, h⟩ | ⟨hs, h⟩ | ⟨hs, h⟩ | ⟨hs, h⟩ |
    ⟨hn, ht, h⟩ | ⟨hn, hr, h⟩ <;> rw [h]
  case inr.inr.inl => exact .inr (.inl ⟨hs, rfl⟩)
  case inr.inr.inr.inr.inr.inl =>
    exact .inr (.inr ⟨_, by rw [hs]; decide, fun _ => rfl, fun _ => rfl, rfl⟩)
  case inr.inr.inr.inr.inr.inr.inl => exact .inr (.inr ⟨_, hn.1, fun _ => rfl, fun _ => rfl, rfl⟩)
  case inr.inr.inr.inr.inr.inr.inr => exact .inr (.inr ⟨_, hn.1, fun _ => rfl, fun _ => rfl, rfl⟩)
  all_goals exact .inl ⟨_, by rw [hs]; decide, rfl⟩

/-- Every low read answers the low half of the base port, or is answered by an unspecified draw. -/
theorem readLow_cases (s : State) :
    (s.ctl.selectedRegister = regBase ∧ readLow s = (lowHalf s.ctl.basePort, s)) ∨
    (s.ctl.selectedRegister ≠ regBase ∧ readLow s = s.ask .unspecified) := by
  unfold readLow readLowOp
  by_cases h : s.ctl.selectedRegister = regBase
  · exact .inl ⟨h, by rw [if_pos h]; rfl⟩
  · exact .inr ⟨h, by rw [if_neg h]; rfl⟩

/-! ## The queues -/

/-- What popping an event can do: it takes the oldest event of one queue, and uses a free value only if both queues hold one. -/
theorem popEvent_cases (s : State) (tx : Transaction) (t : State) (h : s.popEvent = some (tx, t)) :
    (∃ w ws, s.iowQueue = w :: ws ∧ tx = .iow w.port w.data ∧
      ((s.iorQueue = [] ∧ t = { s with iowQueue := ws }) ∨ (s.iorQueue ≠ [] ∧ t = { s.advanceDraw with iowQueue := ws }))) ∨
    (∃ r rs, s.iorQueue = r :: rs ∧ tx = .ior r ∧
      ((s.iowQueue = [] ∧ t = { s with iorQueue := rs }) ∨ (s.iowQueue ≠ [] ∧ t = { s.advanceDraw with iorQueue := rs }))) := by
  unfold State.popEvent at h
  split at h
  · cases h
  · cases h; left; exact ⟨_, _, ‹_›, rfl, .inl ⟨‹_›, rfl⟩⟩
  · cases h; right; exact ⟨_, _, ‹_›, rfl, .inl ⟨‹_›, rfl⟩⟩
  · split at h <;> cases h
    · left; exact ⟨_, _, ‹_›, rfl, .inr ⟨by simp_all, rfl⟩⟩
    · right; exact ⟨_, _, ‹_›, rfl, .inr ⟨by simp_all, rfl⟩⟩

/-- Popping an event changes nothing but its queue and, at most, the count of free values. -/
theorem popEvent_keeps (s : State) (tx : Transaction) (t : State) (h : s.popEvent = some (tx, t)) :
    t.cfg = s.cfg ∧ t.ctl = s.ctl ∧ t.trace = s.trace ∧ t.resetPending = s.resetPending ∧
      t.hostProgram = s.hostProgram ∧ t.contextB = s.contextB := by
  rcases popEvent_cases s tx t h with ⟨w, ws, -, -, (⟨-, rfl⟩ | ⟨-, rfl⟩)⟩ | ⟨r, rs, -, -, (⟨-, rfl⟩ | ⟨-, rfl⟩)⟩ <;>
    exact ⟨rfl, rfl, rfl, rfl, rfl, rfl⟩

/-- No event is popped exactly when both queues are empty. -/
theorem popEvent_none (s : State) : s.popEvent = none ↔ s.iowQueue = [] ∧ s.iorQueue = [] := by
  unfold State.popEvent
  split <;> simp_all
  split <;> simp_all

/-- A delivered event is at the end of its direction's queue, and nothing else changes. -/
@[simp] theorem deliver_iow (s : State) (p : Port) (v : Byte) :
    s.deliver (.iow p v) = { s with iowQueue := s.iowQueue ++ [{ port := p, data := v }] } := rfl
@[simp] theorem deliver_ior (s : State) (p : Port) :
    s.deliver (.ior p) = { s with iorQueue := s.iorQueue ++ [p] } := rfl

/-- The host waits exactly while an event can be popped. -/
theorem hostWaiting_false (s : State) : s.hostWaiting = false ↔ s.popEvent = none := by
  rw [popEvent_none]
  simp [State.hostWaiting, State.writeLinePending, State.readLinePending]

/-- What the host's turn can do: deliver its next transaction, or nothing. -/
theorem hostIssue_cases (s : State) :
    (s.hostProgram = [] ∧ s.hostIssue = s) ∨
    (∃ tx rest, s.hostProgram = tx :: rest ∧ s.hostIssue = { s with hostProgram := rest }.deliver tx) := by
  unfold State.hostIssue
  cases h : s.hostProgram with
  | nil => exact .inl ⟨rfl, rfl⟩
  | cons tx rest => exact .inr ⟨tx, rest, rfl, rfl⟩

/-- The host's turn changes neither the configuration, the Control State, Context B's read, the trace, the draws nor the reset
input. -/
theorem hostIssue_keeps (s : State) :
    s.hostIssue.cfg = s.cfg ∧ s.hostIssue.ctl = s.ctl ∧ s.hostIssue.contextB = s.contextB ∧ s.hostIssue.trace = s.trace ∧
      s.hostIssue.draws = s.draws ∧ s.hostIssue.resetPending = s.resetPending := by
  rcases hostIssue_cases s with ⟨-, h⟩ | ⟨tx, rest, -, h⟩ <;> rw [h]
  · exact ⟨rfl, rfl, rfl, rfl, rfl, rfl⟩
  · cases tx <;> exact ⟨rfl, rfl, rfl, rfl, rfl, rfl⟩

/-! ## Context B's read -/

/-- A read that begins has one candidate, the present base port. -/
@[simp] theorem beginContextBRead_candidates (s : State) : s.beginContextBRead.contextBCandidates = [s.ctl.basePort] := by
  simp [State.contextBCandidates, ContextBRead.seen]

/-- There is always a candidate. -/
theorem contextBCandidates_ne_nil (s : State) : s.contextBCandidates ≠ [] := by
  unfold State.contextBCandidates
  split <;> exact List.cons_ne_nil _ _

/-- Effects appended after the mark add the base ports they commit. -/
theorem ContextBRead.seen_append (r : ContextBRead) (xs ys : List Effect) (h : r.mark ≤ xs.length) :
    r.seen (xs ++ ys) = r.seen xs ++ ys.filterMap Effect.rebased? := by
  simp [ContextBRead.seen, List.drop_append_of_le_length h]

/-- A read that lives through a reset keeps its candidates and may return the default too. -/
@[simp] theorem ContextBRead.throughReset_seen (r : ContextBRead) (xs : List Effect) (base : Word16) :
    (r.throughReset xs base).seen xs = r.seen xs ++ [base] := by
  simp [ContextBRead.seen, ContextBRead.throughReset]

end Sys2Proof.Machine
end

