-- ==== Sys2Proof/Laws/Exec.lean ====
section
/-!
SUPPORT. What a dispatch call and a step can do, said once: every meaning keeps the configuration, the queues, the host's
program, Context B's read and the reset input; the step's cases.
-/

namespace Sys2Proof.Machine

/-- `t` differs from `s` at most in the Control State, the draws and effects appended to the trace. -/
def Leaves (s t : State) : Prop :=
  t.cfg = s.cfg ∧ t.iowQueue = s.iowQueue ∧ t.iorQueue = s.iorQueue ∧ t.resetPending = s.resetPending ∧
    t.hostProgram = s.hostProgram ∧ t.contextB = s.contextB ∧ ∃ effs, t.trace = s.trace ++ effs

theorem leaves_after (s : State) (c : ControlState) (effs : List Effect) : Leaves s (s.after c effs) :=
  ⟨rfl, rfl, rfl, rfl, rfl, rfl, effs, rfl⟩

theorem leaves_afterDraw (s : State) (c : ControlState) (effs : List Effect) : Leaves s (s.afterDraw c effs) :=
  ⟨rfl, rfl, rfl, rfl, rfl, rfl, effs, rfl⟩

theorem leaves_refl (s : State) : Leaves s s := ⟨rfl, rfl, rfl, rfl, rfl, rfl, [], by simp⟩

theorem Leaves.trans {s t u : State} (h : Leaves s t) (h' : Leaves t u) : Leaves s u := by
  obtain ⟨a, b, c, d, f, g, e, he⟩ := h
  obtain ⟨a', b', c', d', f', g', e', he'⟩ := h'
  exact ⟨a'.trans a, b'.trans b, c'.trans c, d'.trans d, f'.trans f, g'.trans g, e ++ e', by rw [he', he, List.append_assoc]⟩

theorem leaves_push (s : State) (e : Effect) : Leaves s (s.push e) := leaves_after s s.ctl [e]
theorem leaves_emit (s : State) (r : Response) : Leaves s (s.emit r) := leaves_after s s.ctl [.emit r]
theorem leaves_setCtl (s : State) (c : ControlState) : Leaves s (s.setCtl c) := ⟨rfl, rfl, rfl, rfl, rfl, rfl, [], by simp⟩
theorem leaves_ask (s : State) (call : Byte → Effect) : Leaves s (s.ask call).2 :=
  leaves_afterDraw s s.ctl [call (Config.freeByte s.draws)]

theorem leaves_whenUnlocked (s : State) (op : State → State) (h : ∀ u, Leaves u (op u)) :
    Leaves s (s.whenUnlocked op) := by
  unfold State.whenUnlocked
  split
  · exact h s
  · exact leaves_refl s

theorem leaves_controlWrite (s : State) (op : State → State) (h : ∀ u, Leaves u (op u)) : Leaves s (s.controlWrite op) :=
  (leaves_emit s _).trans ((h _).trans (leaves_emit _ _))

theorem leaves_dataWrite (s : State) (op : State → State) (h : ∀ u, Leaves u (op u)) : Leaves s (s.dataWrite op) := by
  unfold State.dataWrite
  split
  · exact (leaves_emit s _).trans ((leaves_whenUnlocked _ op h).trans (leaves_emit _ _))
  · exact (leaves_emit s _).trans (leaves_whenUnlocked _ op h)

theorem leaves_mappedRead (s : State) (op : State → Byte × State) (h : ∀ u, Leaves u (op u).2) :
    Leaves s (s.mappedRead op) :=
  (leaves_emit s _).trans ((h _).trans (leaves_emit _ _))

theorem leaves_selectFirmware (s : State) : Leaves s (selectFirmware s) := by
  unfold selectFirmware
  split
  · exact leaves_setCtl s _
  · exact (leaves_setCtl s _).trans (leaves_push _ _)

theorem leaves_select (v : Byte) (s : State) : Leaves s (select v s) := by
  rcases select_cases v s with ⟨-, -, -, h⟩ | ⟨-, h⟩ | ⟨-, -, h⟩ | ⟨-, -, -, h⟩ <;> rw [h] <;> exact leaves_after _ _ _

theorem leaves_writeLow (v : Byte) (s : State) : Leaves s (writeLow v s) := by
  rcases writeLow_cases v s with ⟨-, h⟩ | ⟨-, h⟩ <;> rw [h]
  · exact leaves_after _ _ _
  · exact leaves_refl s

theorem leaves_writeHigh (v : Byte) (s : State) : Leaves s (writeHigh v s) := by
  rcases writeHigh_cases v s with ⟨-, h⟩ | ⟨-, h⟩ | ⟨-, -, h⟩ | ⟨-, h⟩ <;> rw [h]
  all_goals first | exact leaves_after _ _ _ | exact leaves_refl s

theorem leaves_readHigh (s : State) : Leaves s (readHigh s).2 := by
  rcases readHigh_cases s with ⟨b, -, h⟩ | ⟨-, h⟩ | ⟨call, -, -, -, h⟩ <;> rw [h]
  · exact leaves_refl s
  · exact leaves_setCtl s _
  · exact leaves_ask s call

theorem leaves_readLow (s : State) : Leaves s (readLow s).2 := by
  rcases readLow_cases s with ⟨-, h⟩ | ⟨-, h⟩ <;> rw [h]
  · exact leaves_refl s
  · exact leaves_ask s _

/-- Every meaning answers a next state that keeps the configuration, the queues, the host's program, Context B's read, the reset
input and the trace so far. -/
theorem exec_leaves (i : Instr) (s : State) : ∃ t, exec i s = .next t ∧ Leaves s t := by
  cases i
  case iowUnlock => exact ⟨_, rfl, leaves_controlWrite s _ fun u => leaves_setCtl u _⟩
  case iowSelect v => exact ⟨_, rfl, leaves_controlWrite s _ fun u => leaves_whenUnlocked u _ (leaves_select v)⟩
  case selFw => exact ⟨_, rfl, leaves_controlWrite s _ fun u => leaves_whenUnlocked u _ leaves_selectFirmware⟩
  case iowDataLo v => exact ⟨_, rfl, leaves_dataWrite s _ (leaves_writeLow v)⟩
  case iowDataHi v => exact ⟨_, rfl, leaves_dataWrite s _ (leaves_writeHigh v)⟩
  case wrloBase v => exact ⟨_, rfl, leaves_dataWrite s _ fun u => leaves_setCtl u _⟩
  case wrhiBase v => exact ⟨_, rfl, leaves_dataWrite s _ fun u => (leaves_setCtl u _).trans (leaves_push _ _)⟩
  case wrhiFw v => exact ⟨_, rfl, leaves_dataWrite s _ fun u => leaves_push u _⟩
  case wrhiTuning v => exact ⟨_, rfl, leaves_dataWrite s _ fun u => leaves_push u _⟩
  case wrloIgnored | wrhiIgnored | wrhiUnrecognized => exact ⟨_, rfl, leaves_dataWrite s _ leaves_refl⟩
  case iowBackendFast => exact ⟨_, rfl, (leaves_emit s _).trans (leaves_push _ _)⟩
  case iowBackendSlow => exact ⟨_, rfl, ((leaves_emit s _).trans (leaves_push _ _)).trans (leaves_emit _ _)⟩
  case iowUnmapped | iorUnmapped => exact ⟨_, rfl, leaves_emit s _⟩
  case iorDataLo => exact ⟨_, rfl, leaves_mappedRead s _ leaves_readLow⟩
  case iorDataHi => exact ⟨_, rfl, leaves_mappedRead s _ leaves_readHigh⟩
  case rdhiString => exact ⟨_, rfl, leaves_mappedRead s _ fun u => leaves_setCtl u _⟩
  case iorBackend off => exact ⟨_, rfl, leaves_mappedRead s _ fun u => leaves_ask u _⟩
  case rdhiFw | rdhiUnrecognized | rdloOther => exact ⟨_, rfl, leaves_mappedRead s _ fun u => leaves_ask u _⟩
  case rdhiTuning => exact ⟨_, rfl, leaves_mappedRead s _ fun u => leaves_ask u _⟩
  case iorCtrl | iorBackendSentinel | rdhiMagic | rdhiVersion | rdhiType | rdhiBase | rdloBase =>
    exact ⟨_, rfl, leaves_mappedRead s _ leaves_refl⟩
  all_goals exact ⟨_, rfl, leaves_controlWrite s _ fun u => leaves_whenUnlocked u _ fun w => leaves_setCtl w _⟩

/-- Everything a step that answers a next state can be: the external reset, the host's turn, or one dispatch call. -/
theorem step_cases (s t : State) (h : step s = .next t) :
    s.cfg.wf = true ∧
    ((s.resetPending = true ∧ t = s.externalReset) ∨
     (s.resetPending = false ∧ s.popEvent = none ∧ t = s.hostIssue) ∨
     (s.resetPending = false ∧ ∃ tx u, s.popEvent = some (tx, u) ∧ exec (decode u.cfg u.ctl.basePort tx) u = .next t)) := by
  unfold step at h
  by_cases hw : s.cfg.wf = true
  · rw [if_pos hw] at h
    refine ⟨hw, ?_⟩
    by_cases hr : s.resetPending = true
    · rw [if_pos hr] at h
      cases h
      exact .inl ⟨hr, rfl⟩
    · rw [if_neg hr] at h
      have hr : s.resetPending = false := by simpa using hr
      cases hp : s.popEvent with
      | none =>
        rw [hp] at h
        cases h
        exact .inr (.inl ⟨hr, rfl, rfl⟩)
      | some e =>
        rw [hp] at h
        exact .inr (.inr ⟨hr, e.1, e.2, rfl, h⟩)
  · rw [if_neg hw] at h
    cases h

end Sys2Proof.Machine
end

