-- ==== Sys2Proof/Laws/PerInstr.lean ====
section
/-!
SUPPORT. A statement made of every instruction as syntax: the canonical word of a read carries no data (R91, R92).
-/

namespace Sys2Proof.Laws

/-- A word with direction bit 0 has data bits 0. -/
theorem word_data_of_read (tx : Transaction) (h : tx.word.getLsbD 18 = false) : tx.word.extractLsb' 0 8 = 0 := by
  cases tx with
  | iow p v =>
    exfalso
    revert h
    simp [Transaction.word]
  | ior p =>
    ext i hi
    have h8 : i < 8 := hi
    simp [Transaction.word, h8]

/-- If the direction bit of an instruction's canonical word is 0 (a read), its data bits are 0. -/
def CanonicalReadData.Statement (i : Instr) : Prop :=
  ∀ (cfg : Config) (base : Word16), (encode cfg base i).getLsbD 18 = false → (encode cfg base i).extractLsb' 0 8 = 0

namespace CanonicalReadData

theorem iowUnlock : Statement .iowUnlock := fun _ _ h => word_data_of_read _ h
theorem iowSelect (v : Byte) : Statement (.iowSelect v) := fun _ _ h => word_data_of_read _ h
theorem iowDataLo (v : Byte) : Statement (.iowDataLo v) := fun _ _ h => word_data_of_read _ h
theorem iowDataHi (v : Byte) : Statement (.iowDataHi v) := fun _ _ h => word_data_of_read _ h
theorem iowBackendFast (off : Nat) (v : Byte) : Statement (.iowBackendFast off v) := fun _ _ h => word_data_of_read _ h
theorem iowBackendSlow (off : Nat) (v : Byte) : Statement (.iowBackendSlow off v) := fun _ _ h => word_data_of_read _ h
theorem iowUnmapped (port : Port) (v : Byte) : Statement (.iowUnmapped port v) := fun _ _ h => word_data_of_read _ h
theorem iorCtrl : Statement .iorCtrl := fun _ _ h => word_data_of_read _ h
theorem iorDataLo : Statement .iorDataLo := fun _ _ h => word_data_of_read _ h
theorem iorDataHi : Statement .iorDataHi := fun _ _ h => word_data_of_read _ h
theorem iorBackendSentinel (off : Nat) (sentinel : Byte) : Statement (.iorBackendSentinel off sentinel) := fun _ _ h => word_data_of_read _ h
theorem iorBackend (off : Nat) : Statement (.iorBackend off) := fun _ _ h => word_data_of_read _ h
theorem iorUnmapped (port : Port) : Statement (.iorUnmapped port) := fun _ _ h => word_data_of_read _ h
theorem selMagic : Statement .selMagic := fun _ _ h => word_data_of_read _ h
theorem selVersion : Statement .selVersion := fun _ _ h => word_data_of_read _ h
theorem selString : Statement .selString := fun _ _ h => word_data_of_read _ h
theorem selType : Statement .selType := fun _ _ h => word_data_of_read _ h
theorem selBase : Statement .selBase := fun _ _ h => word_data_of_read _ h
theorem selFw : Statement .selFw := fun _ _ h => word_data_of_read _ h
theorem selTuning (r : Byte) : Statement (.selTuning r) := fun _ _ h => word_data_of_read _ h
theorem selUnrecognized (v : Byte) : Statement (.selUnrecognized v) := fun _ _ h => word_data_of_read _ h
theorem wrloBase (v : Byte) : Statement (.wrloBase v) := fun _ _ h => word_data_of_read _ h
theorem wrloIgnored (v : Byte) : Statement (.wrloIgnored v) := fun _ _ h => word_data_of_read _ h
theorem wrhiBase (v : Byte) : Statement (.wrhiBase v) := fun _ _ h => word_data_of_read _ h
theorem wrhiFw (v : Byte) : Statement (.wrhiFw v) := fun _ _ h => word_data_of_read _ h
theorem wrhiTuning (v : Byte) : Statement (.wrhiTuning v) := fun _ _ h => word_data_of_read _ h
theorem wrhiIgnored (v : Byte) : Statement (.wrhiIgnored v) := fun _ _ h => word_data_of_read _ h
theorem wrhiUnrecognized (v : Byte) : Statement (.wrhiUnrecognized v) := fun _ _ h => word_data_of_read _ h
theorem rdhiMagic : Statement .rdhiMagic := fun _ _ h => word_data_of_read _ h
theorem rdhiVersion : Statement .rdhiVersion := fun _ _ h => word_data_of_read _ h
theorem rdhiString : Statement .rdhiString := fun _ _ h => word_data_of_read _ h
theorem rdhiType : Statement .rdhiType := fun _ _ h => word_data_of_read _ h
theorem rdhiBase : Statement .rdhiBase := fun _ _ h => word_data_of_read _ h
theorem rdhiFw : Statement .rdhiFw := fun _ _ h => word_data_of_read _ h
theorem rdhiTuning : Statement .rdhiTuning := fun _ _ h => word_data_of_read _ h
theorem rdhiUnrecognized : Statement .rdhiUnrecognized := fun _ _ h => word_data_of_read _ h
theorem rdloBase : Statement .rdloBase := fun _ _ h => word_data_of_read _ h
theorem rdloOther : Statement .rdloOther := fun _ _ h => word_data_of_read _ h

end CanonicalReadData

end Sys2Proof.Laws
end

