-- ==== Sys2Proof/Tests/Slice0.lean ====
section
/-!
SUPPORT. Tests on fixed values, each expected result taken from spec/ (the vectors of spec/95 in the configuration EX, unless a
docstring says otherwise), and a witness for every obligation that has hypotheses.
-/

open Sys2Proof Sys2Proof.Machine

namespace Sys2Proof.Tests

/-! ## Helpers -/

/-- EX after reset, but for the selected register and the lock. -/
def at_ (sel : Byte) (act : Bool) : State :=
  { State.reset with ctl := { State.reset.ctl with selectedRegister := sel, controlActive := act } }

/-- A state in update mode, with register 0xFF selected. -/
def updating : State :=
  { at_ 0xFF true with ctl := { (at_ 0xFF true).ctl with firmwareUpdateActive := true } }

/-- Register 0x04 selected with the given base port and staging byte. -/
def atBase (base : Word16) (stg : Byte) : State :=
  { at_ 0x04 true with ctl := { (at_ 0x04 true).ctl with basePort := base, basePortStagingLow := stg } }

/-- Register 0x02 selected with the given cursor. -/
def atString (cur : Nat) : State :=
  { at_ 0x02 true with ctl := { (at_ 0x02 true).ctl with stringCursor := cur } }

/-- The Control State and the trace after one step on the transaction with the canonical word `w`. -/
def ran (s : State) (w : Nat) : Option (ControlState × List Effect) :=
  match step (s.withFetchWord 24 w) with
  | .next t => some (t.ctl, t.trace)
  | .fault _ => none
  | .refused _ => none

/-- Both levels of the decode of the canonical word `w`, in EX with the base port of reset. -/
def opOf (active : Bool) (sel : Byte) (w : Nat) : Option Instr :=
  match decodeRaw w with
  | .ok tx => some (decodeFull Config.ex active sel 0x0240 tx)
  | .error _ => none

/-! ## Well-formedness -/

theorem test_ex_wf : Config.ex.wf = true := by decide
theorem test_wf_control_is_low : { Config.ex with dataLowPort := 0x1D0 }.wf = false := by decide
theorem test_wf_control_is_high : { Config.ex with dataHighPort := 0x1D0 }.wf = false := by decide
theorem test_wf_low_is_high : { Config.ex with dataHighPort := 0x1D1 }.wf = false := by decide
theorem test_wf_tuning_fixed : { Config.ex with tuningRegs := [0x10, 0x04] }.wf = false := by decide
theorem test_wf_tuning_unlock : { Config.ex with tuningRegs := [0xCC] }.wf = false := by decide
theorem test_wf_string_zero : { Config.ex with idString := [0x41, 0x00] }.wf = false := by decide
theorem test_wf_type : { Config.ex with backendType := 0x05 }.wf = false := by decide
theorem test_wf_region_empty : { Config.ex with region := [] }.wf = false := by decide
theorem test_wf_select_unlock : (Instr.iowSelect 0xCC).wf Config.ex = false := by decide
theorem test_wf_fast_offset :
    (Instr.iowBackendFast 8 0).wf Config.ex = false ∧ (Instr.iowBackendFast 16 0).wf Config.ex = false := by decide
theorem test_wf_slow_offset :
    (Instr.iowBackendSlow 7 0).wf Config.ex = false ∧ (Instr.iowBackendSlow 16 0).wf Config.ex = false := by decide
theorem test_wf_sentinel :
    (Instr.iorBackendSentinel 6 0xAB).wf Config.ex = false ∧
    (Instr.iorBackendSentinel 5 0xAA).wf Config.ex = false := by decide
theorem test_wf_backend_read :
    (Instr.iorBackend 6).wf Config.ex = false ∧ (Instr.iorBackend 16).wf Config.ex = false := by decide
theorem test_wf_tuning : (Instr.selTuning 0x11).wf Config.ex = false := by decide
theorem test_wf_unrecognized :
    (Instr.selUnrecognized 0x10).wf Config.ex = false ∧
    (Instr.selUnrecognized 0xCC).wf Config.ex = false := by decide
/-- The condition column: `IOW_UNMAPPED` does not hold at a region port, nor `SEL_MAGIC` while locked. -/
theorem test_applies :
    (Instr.iowUnmapped 0x240 0).appliesIn Config.ex true 0x00 0x0240 = false ∧
    Instr.selMagic.appliesIn Config.ex false 0x00 0x0240 = false := by decide

/-! ## Words: direction bit 18, port bits 17 to 8, data bits 7 to 0 (R91), written out bit by bit for each family -/

theorem test_word_unlock : decodeTableWord 24 0b1011101000011001100 = some .iowUnlock := by decide
theorem test_word_select : decodeTableWord 24 0b1011101000000000100 = some (.iowSelect 0x04) := by decide
theorem test_word_data_lo : decodeTableWord 24 0b1011101000100110100 = some (.iowDataLo 0x34) := by decide
theorem test_word_data_hi : decodeTableWord 24 0b1011101001000000010 = some (.iowDataHi 0x02) := by decide
theorem test_word_fast : decodeTableWord 24 0b1100100011100010001 = some (.iowBackendFast 7 0x11) := by decide
theorem test_word_slow : decodeTableWord 24 0b1100100100000010010 = some (.iowBackendSlow 8 0x12) := by decide
theorem test_word_unmapped :
    decodeTableWord 24 0b1100011111100000001 = some (.iowUnmapped 0x23F 0x01) ∧
    decodeTableWord 24 0x65001 = some (.iowUnmapped 0x250 0x01) := by decide
theorem test_word_read_ctrl : decodeTableWord 24 0b0011101000000000000 = some .iorCtrl := by decide
theorem test_word_read_lo : decodeTableWord 24 0b0011101000100000000 = some .iorDataLo := by decide
theorem test_word_read_hi : decodeTableWord 24 0b0011101001000000000 = some .iorDataHi := by decide
theorem test_word_sentinel : decodeTableWord 24 0b0100100011000000000 = some (.iorBackendSentinel 6 0xAA) := by decide
theorem test_word_backend : decodeTableWord 24 0b0100100000100000000 = some (.iorBackend 1) := by decide
theorem test_word_read_unmapped : decodeTableWord 24 0b0110000000000000000 = some (.iorUnmapped 0x300) := by decide
/-- The data bits of a read have no meaning (R92). -/
theorem test_word_read_data_ignored : decodeTableWord 24 0x1D2FF = some .iorDataHi := by decide
/-- A number with a bit above bit 18 is refused by name (log entry 12). -/
theorem test_word_refused :
    decodeRaw 0x80000 = .error .bitsAbove18 ∧ decodeTableWord 24 0x80000 = none := by decide

theorem test_sel_words :
    opOf true 0 0b1011101000000000000 = some .selMagic ∧ opOf true 0 0x5D001 = some .selVersion ∧
    opOf true 0 0x5D002 = some .selString ∧ opOf true 0 0x5D003 = some .selType ∧
    opOf true 0 0x5D004 = some .selBase ∧ opOf true 0 0x5D0FF = some .selFw ∧
    opOf true 0 0x5D010 = some (.selTuning 0x10) ∧ opOf true 0 0x5D050 = some (.selUnrecognized 0x50) := by decide
theorem test_sel_locked : opOf false 0 0x5D000 = some (.iowSelect 0x00) := by decide
theorem test_wrlo_words :
    opOf true 0x04 0b1011101000100110100 = some (.wrloBase 0x34) ∧
    opOf true 0x10 0x5D101 = some (.wrloIgnored 0x01) := by decide
theorem test_wrhi_words :
    opOf true 0x04 0b1011101001000000010 = some (.wrhiBase 0x02) ∧ opOf true 0xFF 0x5D2A5 = some (.wrhiFw 0xA5) ∧
    opOf true 0x10 0x5D23F = some (.wrhiTuning 0x3F) ∧ opOf true 0x00 0x5D277 = some (.wrhiIgnored 0x77) ∧
    opOf true 0x03 0x5D277 = some (.wrhiIgnored 0x77) ∧
    opOf true 0x50 0x5D212 = some (.wrhiUnrecognized 0x12) := by decide
theorem test_rdhi_words :
    opOf true 0x00 0b0011101001000000000 = some .rdhiMagic ∧ opOf true 0x01 0x1D200 = some .rdhiVersion ∧
    opOf true 0x02 0x1D200 = some .rdhiString ∧ opOf true 0x03 0x1D200 = some .rdhiType ∧
    opOf true 0x04 0x1D200 = some .rdhiBase ∧ opOf true 0xFF 0x1D200 = some .rdhiFw ∧
    opOf true 0x10 0x1D200 = some .rdhiTuning ∧ opOf true 0x50 0x1D200 = some .rdhiUnrecognized := by decide
theorem test_rdlo_words :
    opOf true 0x04 0b0011101000100000000 = some .rdloBase ∧ opOf true 0x02 0x1D100 = some .rdloOther := by decide
/-- Reads are refined while locked too (R138). -/
theorem test_rdhi_locked : opOf false 0x00 0x1D200 = some .rdhiMagic := by decide
theorem test_response_words :
    Response.hold.word = 0x000 ∧ Response.done.word = 0x200 ∧ (Response.doneData 0xDD).word = 0x3DD := by decide
/-- R106. -/
theorem test_set_base_expands :
    (Asm.setBase 0x0234).expand Config.ex = [.iow 0x1D0 0x04, .iow 0x1D1 0x34, .iow 0x1D2 0x02] := by decide

/-! ## One step on the vectors of spec/95 section 3 -/

theorem test_iow_1 : ran State.reset 0x5D0CC = some ((at_ 0x00 true).ctl, [.emit .hold, .emit .done]) := by decide
theorem test_iow_3 : ran State.reset 0x5D004 = some (State.reset.ctl, [.emit .hold, .emit .done]) := by decide
theorem test_iow_4 : ran State.reset 0x5D134 = some (State.reset.ctl, [.emit .done]) := by decide
theorem test_iow_5 : ran State.reset 0x5D202 = some (State.reset.ctl, [.emit .done]) := by decide
theorem test_iow_6 : ran State.reset 0x64010 = some (State.reset.ctl, [.emit .done, .backendWrite 0 0x10]) := by decide
theorem test_iow_8b :
    ran State.reset 0x64F13 = some (State.reset.ctl, [.emit .hold, .backendWrite 15 0x13, .emit .done]) := by decide
theorem test_iow_8c : ran State.reset 0x64614 = some (State.reset.ctl, [.emit .done, .backendWrite 6 0x14]) := by decide
theorem test_iow_9 : ran State.reset 0x63F01 = some (State.reset.ctl, [.emit .done]) := by decide
theorem test_iow_10 : ran State.reset 0x65001 = some (State.reset.ctl, [.emit .done]) := by decide

theorem test_ior_2 :
    ran (at_ 0x50 false) 0x1D000 = some ((at_ 0x50 false).ctl, [.emit .hold, .emit (.doneData 0x50)]) := by decide
theorem test_ior_3 : ran State.reset 0x1D200 = some (State.reset.ctl, [.emit .hold, .emit (.doneData 0xDD)]) := by decide
theorem test_ior_4 :
    ran State.reset 0x1D100 = some (State.reset.ctl,
      [.emit .hold, .unspecified (Config.freeByte 0), .emit (.doneData (Config.freeByte 0))]) := by rfl
theorem test_ior_5 : ran State.reset 0x24600 = some (State.reset.ctl, [.emit .hold, .emit (.doneData 0xAA)]) := by decide
theorem test_ior_6 :
    ran State.reset 0x24100 = some (State.reset.ctl,
      [.emit .hold, .backendRead 1 (Config.freeByte 0), .emit (.doneData (Config.freeByte 0))]) := by rfl
theorem test_ior_7 : ran State.reset 0x23F00 = some (State.reset.ctl, [.emit .done]) := by decide

theorem test_sel_1 : ran (at_ 0x03 true) 0x5D000 = some ((at_ 0x00 true).ctl, [.emit .hold, .emit .done]) := by decide
theorem test_sel_2 : ran (at_ 0x00 true) 0x5D001 = some ((at_ 0x01 true).ctl, [.emit .hold, .emit .done]) := by decide
theorem test_sel_3 : ran (atString 1) 0x5D002 = some ((atString 0).ctl, [.emit .hold, .emit .done]) := by decide
theorem test_sel_4 : ran (at_ 0x00 true) 0x5D003 = some ((at_ 0x03 true).ctl, [.emit .hold, .emit .done]) := by decide
theorem test_sel_5 :
    ran (atBase 0x0240 0x20) 0x5D004 = some ((atBase 0x0240 0x20).ctl, [.emit .hold, .emit .done]) := by decide
theorem test_sel_6 :
    ran (at_ 0x00 true) 0x5D0FF = some (updating.ctl, [.emit .hold, .updaterEnter, .emit .done]) := by decide
theorem test_sel_7 : ran updating 0x5D0FF = some (updating.ctl, [.emit .hold, .emit .done]) := by decide
theorem test_sel_8 : ran (at_ 0x00 true) 0x5D010 = some ((at_ 0x10 true).ctl, [.emit .hold, .emit .done]) := by decide
/-- The configuration of SEL-9 has no tuning register. -/
theorem test_sel_9 :
    ran { at_ 0x00 true with cfg := { Config.ex with tuningRegs := [] } } 0x5D010 =
      some ((at_ 0x10 false).ctl, [.emit .hold, .emit .done]) := by decide
theorem test_sel_11 :
    ran updating 0x5D050 = some ({ updating.ctl with selectedRegister := 0x50, controlActive := false },
      [.emit .hold, .emit .done]) := by decide

theorem test_wr_1 :
    ran (atBase 0x0240 0x00) 0x5D134 = some ((atBase 0x0240 0x34).ctl, [.emit .done]) := by decide
theorem test_wr_2 :
    ran (atBase 0x0240 0x34) 0x5D202 = some ((atBase 0x0234 0x34).ctl, [.emit .done, .backendRebase 0x0234]) := by decide
theorem test_wr_5 :
    ran (atBase 0x0240 0xFF) 0x5D2FF = some ((atBase 0xFFFF 0xFF).ctl, [.emit .done, .backendRebase 0xFFFF]) := by decide
theorem test_wr_6 :
    ran updating 0x5D2A5 = some (updating.ctl, [.emit .hold, .updaterByte 0xA5, .emit .done]) := by decide
theorem test_wr_7 : ran updating 0x5D15A = some (updating.ctl, [.emit .hold, .emit .done]) := by decide
theorem test_wr_8 :
    ran (at_ 0x10 true) 0x5D23F = some ((at_ 0x10 true).ctl, [.emit .done, .backendTune 0x10 0x3F]) := by decide
theorem test_wr_10 : ran (at_ 0x10 true) 0x5D101 = some ((at_ 0x10 true).ctl, [.emit .done]) := by decide
theorem test_wr_11 : ran (atString 1) 0x5D299 = some ((atString 1).ctl, [.emit .done]) := by decide
theorem test_wr_13 : ran (at_ 0x50 true) 0x5D212 = some ((at_ 0x50 true).ctl, [.emit .done]) := by decide

theorem test_rd_2 :
    ran (at_ 0x01 true) 0x1D200 = some ((at_ 0x01 true).ctl, [.emit .hold, .emit (.doneData 0x01)]) := by decide
theorem test_rd_4 : ran (atString 0) 0x1D200 = some ((atString 1).ctl, [.emit .hold, .emit (.doneData 0x41)]) := by decide
theorem test_rd_6 : ran (atString 2) 0x1D200 = some ((atString 0).ctl, [.emit .hold, .emit (.doneData 0x00)]) := by decide
/-- The configuration of RD-7 has the empty identity string. -/
theorem test_rd_7 :
    ran { atString 0 with cfg := { Config.ex with idString := [] } } 0x1D200 =
      some ((atString 0).ctl, [.emit .hold, .emit (.doneData 0x00)]) := by decide
theorem test_rd_8 :
    ran (atString 1) 0x1D100 = some ((atString 1).ctl,
      [.emit .hold, .unspecified (Config.freeByte 0), .emit (.doneData (Config.freeByte 0))]) := by rfl
theorem test_rd_9 :
    ran (at_ 0x03 true) 0x1D200 = some ((at_ 0x03 true).ctl, [.emit .hold, .emit (.doneData 0x00)]) := by decide
theorem test_rd_10_low :
    ran (atBase 0x0234 0x99) 0x1D100 = some ((atBase 0x0234 0x99).ctl, [.emit .hold, .emit (.doneData 0x34)]) := by decide
theorem test_rd_10_high :
    ran (atBase 0x0234 0x99) 0x1D200 = some ((atBase 0x0234 0x99).ctl, [.emit .hold, .emit (.doneData 0x02)]) := by decide
theorem test_rd_11 :
    ran updating 0x1D200 = some (updating.ctl,
      [.emit .hold, .updaterStatus (Config.freeByte 0), .emit (.doneData (Config.freeByte 0))]) := by rfl
theorem test_rd_12 :
    ran (at_ 0x10 true) 0x1D200 = some ((at_ 0x10 true).ctl,
      [.emit .hold, .backendTuneRead 0x10 (Config.freeByte 0), .emit (.doneData (Config.freeByte 0))]) := by rfl
theorem test_rd_13 :
    ran (at_ 0x50 true) 0x1D200 = some ((at_ 0x50 true).ctl,
      [.emit .hold, .unspecified (Config.freeByte 0), .emit (.doneData (Config.freeByte 0))]) := by rfl

theorem test_rg_1 : ran (atBase 0xFFFF 0) 0x7FF01 = some ((atBase 0xFFFF 0).ctl, [.emit .done]) := by decide
theorem test_rg_3 :
    ran (atBase 0x03F8 0) 0x7FF01 = some ((atBase 0x03F8 0).ctl, [.emit .done, .backendWrite 7 0x01]) := by decide
theorem test_rg_5 : ran (atBase 0x01CC 0) 0x5D0CC = some ((atBase 0x01CC 0).ctl, [.emit .hold, .emit .done]) := by decide
theorem test_rg_7 :
    ran (atBase 0x01CC 0) 0x1D200 = some ((atBase 0x01CC 0).ctl, [.emit .hold, .emit (.doneData 0x01)]) := by decide
theorem test_rg_8 :
    ran (atBase 0x01CC 0) 0x5D309 = some ((atBase 0x01CC 0).ctl, [.emit .done, .backendWrite 7 0x09]) := by decide

/-! ## Reset, the idle step, the collaborators' contracts -/

theorem test_reset_idle : step State.reset = .next State.reset := by rfl
theorem test_reset_step : step updating.requestReset = .next State.reset := by rfl
/-- R180: the byte 0xFF stands for 256 and 0x00 for 1. -/
theorem test_tuning_size : tuningSize 0xFF = 256 ∧ tuningSize 0x00 = 1 := by decide
/-- R205, with a queue of capacity 2. -/
theorem test_queue_policies :
    enqueueBounded .dropNewest 2 [(0, 1), (0, 2)] (0, 3) = [(0, 1), (0, 2)] ∧
    enqueueBounded .overwriteOldest 2 [(0, 1), (0, 2)] (0, 3) = [(0, 2), (0, 3)] := by decide
/-- R35: the default and the one committed value. -/
theorem test_committed_bases :
    ((State.reset.push (.backendRebase 0x0234)).push (.emit .done)).committedBases = [0x0240, 0x0234] := by decide

/-- The next state of a step, to look at it. -/
def after1 (s : State) : Option State :=
  match step s with
  | .next t => some t
  | .fault _ => none
  | .refused _ => none

/-- R77: a read by Context B that begins after a commit cannot return the value before it. -/
theorem test_context_b_after_commit :
    (after1 ((atBase 0x0240 0x34).withFetchWord 24 0x5D202)).map (fun t => t.beginContextBRead.contextBCandidates) =
      some [0x0234] := by decide
/-- R77: a read that begins before a commit and ends after it may return either value. -/
theorem test_context_b_across_commit :
    (after1 ((atBase 0x0240 0x34).beginContextBRead.withFetchWord 24 0x5D202)).map State.contextBCandidates =
      some [0x0240, 0x0234] := by decide
/-- R74: the host issues the write alone, and keeps the read back until the write is answered. -/
theorem test_host_issues_one :
    after1 (State.reset.request [.iow 0x1D0 0xCC, .ior 0x1D0]) =
      some { State.reset with iowQueue := [{ port := 0x1D0, data := 0xCC }], hostProgram := [.ior 0x1D0] } := by decide

/-! ## Witnesses: a concrete state and operands that meet the hypotheses of each obligation, clause by clause -/

/-- A state with one pending write or read. -/
def withWrite (s : State) (p : Port) (v : Byte) : State := { s with iowQueue := [{ port := p, data := v }] }
def withRead (s : State) (p : Port) : State := { s with iorQueue := [p] }

theorem witness_DecodeEncodeClasses :
    Config.ex.wf = true ∧
    ∀ i ∈ [Instr.iowUnlock, .iowSelect 0x04, .iowDataLo 0x34, .iowDataHi 0x02, .iowBackendFast 0 0x10,
           .iowBackendFast 7 0x11, .iowBackendSlow 8 0x12, .iowBackendSlow 15 0x13, .iowUnmapped 0x23F 0x01, .iorCtrl,
           .iorDataLo, .iorDataHi, .iorBackendSentinel 6 0xAA, .iorBackend 15, .iorUnmapped 0x250],
      i.isClass = true ∧ i.wf Config.ex = true ∧ i.appliesIn Config.ex false 0x00 0x0240 = true := by decide

theorem witness_DecodeEncodeOperations :
    ∀ x ∈ [((0x00 : Byte), Instr.selMagic), (0x00, .selVersion), (0x00, .selString), (0x00, .selType), (0x00, .selBase),
           (0x00, .selFw), (0x00, .selTuning 0x10), (0x00, .selUnrecognized 0x05), (0x00, .selUnrecognized 0xFE),
           (0x04, .wrloBase 0x34), (0x05, .wrloIgnored 0x34), (0x04, .wrhiBase 0x02), (0xFF, .wrhiFw 0xA5),
           (0x10, .wrhiTuning 0x3F), (0x03, .wrhiIgnored 0x77), (0xFE, .wrhiUnrecognized 0x12), (0x00, .rdhiMagic),
           (0x01, .rdhiVersion), (0x02, .rdhiString), (0x03, .rdhiType), (0x04, .rdhiBase), (0xFF, .rdhiFw),
           (0x10, .rdhiTuning), (0x05, .rdhiUnrecognized), (0x04, .rdloBase), (0xFF, .rdloOther)],
      Config.ex.wf = true ∧ x.2.isClass = false ∧ x.2.wf Config.ex = true ∧
      x.2.appliesIn Config.ex true x.1 0x0240 = true := by decide

/-- The control ports, offsets 0 and 15, and the ports just outside the region. -/
theorem witness_IowDecodeTable :
    (0x1D0 : Port) = Config.ex.controlPort ∧ (0xCC : Byte) = 0xCC ∧ (0xCD : Byte) ≠ 0xCC ∧
    (0x1D1 : Port) ≠ Config.ex.controlPort ∧ (0x1D1 : Port) = Config.ex.dataLowPort ∧
    (0x1D2 : Port) ≠ Config.ex.dataLowPort ∧ (0x1D2 : Port) = Config.ex.dataHighPort ∧
    (∀ p ∈ [(0x240 : Port), 0x24F, 0x23F, 0x250],
      p ≠ Config.ex.controlPort ∧ p ≠ Config.ex.dataLowPort ∧ p ≠ Config.ex.dataHighPort) ∧
    (0x240 : Port).toNat = (0x0240 : Word16).toNat + 0 ∧
    Config.ex.entryAt 0 = some { off := 0, fast := true, sentinel := none } ∧
    (0x24F : Port).toNat = (0x0240 : Word16).toNat + 15 ∧
    Config.ex.entryAt 15 = some { off := 15, fast := false, sentinel := none } ∧
    (∀ e ∈ Config.ex.region, (0x23F : Port).toNat ≠ (0x0240 : Word16).toNat + e.off) ∧
    (∀ e ∈ Config.ex.region, (0x250 : Port).toNat ≠ (0x0240 : Word16).toNat + e.off) := by decide

theorem witness_IorDecodeTable :
    (0x1D0 : Port) = Config.ex.controlPort ∧ (0x1D1 : Port) ≠ Config.ex.controlPort ∧
    (0x1D1 : Port) = Config.ex.dataLowPort ∧ (0x1D2 : Port) = Config.ex.dataHighPort ∧
    (∀ p ∈ [(0x246 : Port), 0x245, 0x23F, 0x250],
      p ≠ Config.ex.controlPort ∧ p ≠ Config.ex.dataLowPort ∧ p ≠ Config.ex.dataHighPort) ∧
    (0x246 : Port).toNat = (0x0240 : Word16).toNat + 6 ∧
    Config.ex.entryAt 6 = some { off := 6, fast := true, sentinel := some 0xAA } ∧
    (0x245 : Port).toNat = (0x0240 : Word16).toNat + 5 ∧
    Config.ex.entryAt 5 = some { off := 5, fast := true, sentinel := none } ∧
    (∀ e ∈ Config.ex.region, (0x250 : Port).toNat ≠ (0x0240 : Word16).toNat + e.off) := by decide

/-- The first offset past 0x3FF of the base 0x3F8, and the first base port with no reachable region. -/
theorem witness_RegionPastPortsUnreachable :
    0x3FF < (0x03F8 : Word16).toNat + 8 ∧ 0x3FF < (0x0400 : Word16).toNat ∧ (0x3FF : Port) ∉ Config.ex.ctrlPorts := by decide

theorem witness_ExternalResetStep : updating.requestReset.cfg.wf = true ∧ updating.requestReset.resetPending = true := by decide

theorem witness_StepRunsDecodedEvent :
    (withWrite State.reset 0x3FF 0xFF).cfg.wf = true ∧ (withWrite State.reset 0x3FF 0xFF).resetPending = false ∧
    (withWrite State.reset 0x3FF 0xFF).iowQueue = { port := 0x3FF, data := 0xFF } :: [] ∧
    (withWrite State.reset 0x3FF 0xFF).iorQueue = [] ∧
    (withRead State.reset 0x000).cfg.wf = true ∧ (withRead State.reset 0x000).resetPending = false ∧
    (withRead State.reset 0x000).iowQueue = [] ∧ (withRead State.reset 0x000).iorQueue = 0x000 :: [] := by decide

theorem witness_StepServesEitherDirection :
    (withRead (withWrite State.reset 0x1D0 0xCC) 0x1D0).cfg.wf = true ∧
    (withRead (withWrite State.reset 0x1D0 0xCC) 0x1D0).resetPending = false ∧
    (withRead (withWrite State.reset 0x1D0 0xCC) 0x1D0).iowQueue = { port := 0x1D0, data := 0xCC } :: [] ∧
    (withRead (withWrite State.reset 0x1D0 0xCC) 0x1D0).iorQueue = 0x1D0 :: [] := by decide

theorem witness_IdleStepChangesNothing :
    State.reset.cfg.wf = true ∧ State.reset.resetPending = false ∧ State.reset.writeLinePending = false ∧
    State.reset.readLinePending = false ∧ State.reset.hostProgram = [] ∧ (withWrite State.reset 0 0).writeLinePending = true ∧
    (withRead State.reset 0).readLinePending = true := by decide

theorem witness_IllFormedConfigRefused :
    { Config.ex with dataLowPort := 0x1D0 }.controlPort = { Config.ex with dataLowPort := 0x1D0 }.dataLowPort ∧
    { Config.ex with dataHighPort := 0x1D0 }.controlPort = { Config.ex with dataHighPort := 0x1D0 }.dataHighPort ∧
    { Config.ex with dataHighPort := 0x1D1 }.dataLowPort = { Config.ex with dataHighPort := 0x1D1 }.dataHighPort ∧
    (∀ r ∈ [(0x00 : Byte), 0x01, 0x02, 0x03, 0x04, 0xCC, 0xFF], r ∈ { Config.ex with tuningRegs := [r] }.tuningRegs) ∧
    0x00 ∈ { Config.ex with idString := [0x41, 0x00] }.idString ∧
    (∀ b ∈ [(0x05 : Byte), 0xFE], 0x04 < { Config.ex with backendType := b }.backendType ∧
      { Config.ex with backendType := b }.backendType ≠ 0xFF) := by decide

theorem witness_EveryStepCompletes : State.reset.cfg.wf = true := by decide

theorem witness_LockedSelectIgnored : State.reset.ctl.controlActive = false := by decide

theorem witness_SelectFixedRegister : (at_ 0x00 true).ctl.controlActive = true := by decide

theorem witness_SelectBaseAndTuning :
    (at_ 0x00 true).ctl.controlActive = true ∧ 0x10 ∈ (at_ 0x00 true).cfg.tuningRegs := by decide

theorem witness_SelectFirmwareEntersOnce :
    (at_ 0x00 true).ctl.controlActive = true ∧ (at_ 0x00 true).ctl.firmwareUpdateActive = false ∧
    updating.ctl.controlActive = true ∧ updating.ctl.firmwareUpdateActive = true := by decide

theorem witness_SelectUnrecognizedLocks :
    (at_ 0x00 true).ctl.controlActive = true ∧
    ∀ v ∈ [(0x05 : Byte), 0x50, 0xCB, 0xFE], (at_ 0x00 true).cfg.recognized v = false ∧ v ≠ 0xCC := by decide

theorem witness_UnlockedSelectEffect :
    (at_ 0x00 true).ctl.controlActive = true ∧ updating.ctl.controlActive = true := by decide

theorem witness_LockedDataWriteDropped :
    (at_ 0xFE false).ctl.controlActive = false ∧ (at_ 0xFE false).ctl.selectedRegister ≠ 0xFF ∧
    (at_ 0xFF false).ctl.controlActive = false ∧ (at_ 0xFF false).ctl.selectedRegister = 0xFF := by decide

theorem witness_LowWriteLatchesStaging :
    (at_ 0x04 true).ctl.controlActive = true ∧ (at_ 0x04 true).ctl.selectedRegister = 0x04 := by decide

theorem witness_LowWriteOfOtherRegisterIgnored :
    (∀ r ∈ [(0x00 : Byte), 0x03, 0x05, 0x10, 0xFE], (at_ r true).ctl.controlActive = true ∧
      (at_ r true).ctl.selectedRegister ≠ 0x04 ∧ (at_ r true).ctl.selectedRegister ≠ 0xFF) ∧
    updating.ctl.controlActive = true ∧ updating.ctl.selectedRegister ≠ 0x04 ∧ updating.ctl.selectedRegister = 0xFF := by decide

theorem witness_CommittedBaseAssembly :
    (atBase 0x0240 0x34).ctl.controlActive = true ∧ (atBase 0x0240 0x34).ctl.selectedRegister = 0x04 := by decide

/-- The boundary values 0x0000 and 0xFFFF among them. -/
theorem witness_HighWriteCommitsBase :
    ∀ x ∈ [((0x02 : Byte), (0x34 : Byte), (0x0234 : Word16)), (0x00, 0x00, 0x0000), (0xFF, 0xFF, 0xFFFF)],
      (atBase 0x0240 x.2.1).ctl.controlActive = true ∧ (atBase 0x0240 x.2.1).ctl.selectedRegister = 0x04 ∧
      x.2.2.toNat = 256 * x.1.toNat + (atBase 0x0240 x.2.1).ctl.basePortStagingLow.toNat := by
  simp [atBase, at_]

theorem witness_HighWriteStreamsFirmware :
    updating.ctl.controlActive = true ∧ updating.ctl.selectedRegister = 0xFF := by decide

theorem witness_HighWriteTunesBackend :
    (at_ 0x10 true).cfg.wf = true ∧ (at_ 0x10 true).ctl.controlActive = true ∧
    (at_ 0x10 true).ctl.selectedRegister ∈ (at_ 0x10 true).cfg.tuningRegs := by decide

theorem witness_HighWriteIgnored :
    (∀ r ∈ [(0x00 : Byte), 0x01, 0x02, 0x03], (at_ r true).ctl.controlActive = true ∧
      (at_ r true).ctl.selectedRegister ∈ ([0x00, 0x01, 0x02, 0x03] : List Byte)) ∧
    (∀ r ∈ [(0x05 : Byte), 0x50, 0xFE], (at_ r true).ctl.controlActive = true ∧
      (at_ r true).cfg.recognized (at_ r true).ctl.selectedRegister = false) := by decide

theorem witness_HighReadConstants :
    (at_ 0x00 false).ctl.selectedRegister = 0x00 ∧ (at_ 0x01 true).ctl.selectedRegister = 0x01 ∧
    (at_ 0x03 true).ctl.selectedRegister = 0x03 := by decide

/-- The first byte, the last byte and the terminator. -/
theorem witness_HighReadStreamsString :
    (∀ n ∈ [0, 1], (atString n).ctl.selectedRegister = 0x02 ∧
      (atString n).ctl.stringCursor < (atString n).cfg.idString.length) ∧
    (atString 2).ctl.selectedRegister = 0x02 ∧ (atString 2).ctl.stringCursor = (atString 2).cfg.idString.length := by decide

theorem witness_ReadBaseHalves :
    ∀ x ∈ [((0x0234 : Word16), (0x02 : Byte), (0x34 : Byte)), (0x0000, 0x00, 0x00), (0xFFFF, 0xFF, 0xFF)],
      (atBase x.1 0x99).ctl.selectedRegister = 0x04 ∧
      (atBase x.1 0x99).ctl.basePort.toNat = 256 * x.2.1.toNat + x.2.2.toNat := by
  simp [atBase, at_]

theorem witness_ReadsAnsweredByDraw :
    updating.ctl.selectedRegister = 0xFF ∧
    (at_ 0x10 true).cfg.wf = true ∧ (at_ 0x10 true).ctl.selectedRegister ∈ (at_ 0x10 true).cfg.tuningRegs ∧
    (∀ r ∈ [(0x05 : Byte), 0x50, 0xFE], (at_ r false).cfg.recognized (at_ r false).ctl.selectedRegister = false) ∧
    (∀ r ∈ [(0x03 : Byte), 0x05], (at_ r true).ctl.selectedRegister ≠ 0x04) := by decide

/-- The three reads of EX's string and its terminator. -/
theorem witness_StringStreamsInOrder :
    let s := { atString 0 with iorQueue := [0x1D2, 0x1D2, 0x1D2] }
    s.cfg.wf = true ∧ s.resetPending = false ∧ s.ctl.selectedRegister = 0x02 ∧ s.ctl.stringCursor = 0 ∧
    s.iowQueue = [] ∧ s.iorQueue = List.replicate (s.cfg.idString.length + 1) s.cfg.dataHighPort := by decide

theorem witness_SetBaseMovesTheRegion :
    updating.cfg.wf = true ∧ updating.resetPending = false ∧ updating.ctl.controlActive = true ∧
    updating.iowQueue = [] ∧ updating.iorQueue = [] ∧ updating.hostProgram = [] := by decide

/-- The ports just below and just above the region of reset. -/
theorem witness_UnmappedPortIsNoOp :
    State.reset.cfg.wf = true ∧ State.reset.resetPending = false ∧
    ∀ p ∈ [(0x23F : Port), 0x250], p ∉ State.reset.cfg.ctrlPorts ∧
      (∀ e ∈ State.reset.cfg.region, p.toNat ≠ State.reset.ctl.basePort.toNat + e.off) ∧
      (withWrite State.reset p 0x01).iowQueue = { port := p, data := 0x01 } :: [] ∧
      (withWrite State.reset p 0x01).iorQueue = [] ∧
      (withRead State.reset p).iowQueue = [] ∧ (withRead State.reset p).iorQueue = p :: [] := by decide

theorem witness_BackendQueueStaysBounded :
    ([] : List (Nat × Byte)).length ≤ 0 ∧ ([] : List (Nat × Byte)).length < 1 ∧ ([] : List (Nat × Byte)).length = 0 ∧
    [((0 : Nat), (1 : Byte))].length ≤ 1 ∧ [((0 : Nat), (1 : Byte))].length = 1 ∧ 0 < 1 ∧
    Config.ex.queueOverflow = .dropNewest ∧
    { Config.ex with queueOverflow := .overwriteOldest }.queueOverflow = .overwriteOldest := by decide

/-- A read in progress, with a pending commit. -/
theorem witness_ContextBSeesCommittedBase :
    let s := withWrite (atBase 0x0240 0x34).beginContextBRead 0x1D2 0x02
    s.ContextBMarked ∧ s.contextB ≠ none ∧ ∃ t, step s = .next t ∧ t.contextBCandidates = [0x0240, 0x0234] := by
  refine ⟨?_, ?_, _, rfl, ?_⟩
  · intro r h
    cases h
    exact Nat.le_refl _
  · decide
  · decide

/-- A host with a write and a read to issue: idle, waiting for the write, and a state with one event and its next state. -/
theorem witness_HostTransactionsRunInIssueOrder :
    let s := State.reset.request [.iow 0x1D0 0xCC, .ior 0x1D0]
    s.cfg.wf = true ∧ s.resetPending = false ∧ s.hostWaiting = false ∧
    s.hostProgram = .iow 0x1D0 0xCC :: [.ior 0x1D0] ∧
    s.hostIssue.hostWaiting = true ∧ s.hostIssue.OneOutstanding ∧ (∃ t, step s.hostIssue = .next t ∧ t.hostProgram = [.ior 0x1D0]) ∧
    s.OneOutstanding ∧ ∃ t, step s = .next t ∧ t.hostWaiting = true := by
  refine ⟨?_, rfl, rfl, rfl, rfl, Nat.le_refl _, ⟨_, rfl, rfl⟩, Nat.zero_le _, _, rfl, rfl⟩
  decide

/-! The statements about a step: a state that meets the hypotheses and the next state it reaches. -/

theorem inv_reset : State.reset.ProtocolInv := by refine ⟨?_, ?_, ?_, ?_⟩ <;> decide

theorem witness_EveryStepKeepsProtocolInv :
    (withWrite (at_ 0x00 true) 0x1D0 0xFF).ProtocolInv ∧
    ∃ t, step (withWrite (at_ 0x00 true) 0x1D0 0xFF) = .next t ∧ t.ctl.firmwareUpdateActive = true := by
  refine ⟨⟨?_, ?_, ?_, ?_⟩, _, rfl, ?_⟩ <;> decide

theorem witness_EveryStepKeepsBaseCommitted :
    (withWrite (at_ 0x04 true) 0x1D2 0x02).BaseCommitted ∧
    ∃ t, step (withWrite (at_ 0x04 true) 0x1D2 0x02) = .next t ∧ t.ctl.basePort = 0x0200 := by
  refine ⟨?_, _, rfl, rfl⟩
  show _ ∈ _
  decide

theorem witness_UpdateModeIrreversible :
    (withWrite updating 0x1D0 0x50).resetPending = false ∧
    (withWrite updating 0x1D0 0x50).ctl.firmwareUpdateActive = true ∧
    ∃ t, step (withWrite updating 0x1D0 0x50) = .next t ∧ t.ctl.controlActive = false := ⟨rfl, rfl, _, rfl, rfl⟩

theorem witness_LockedStepProtectsState :
    (withWrite State.reset 0x1D0 0xCC).resetPending = false ∧ (withWrite State.reset 0x1D0 0xCC).ctl.controlActive = false ∧
    ∃ t, step (withWrite State.reset 0x1D0 0xCC) = .next t ∧ t.ctl.controlActive = true := ⟨rfl, rfl, _, rfl, rfl⟩

/-- One step that unlocks and one that locks. -/
theorem witness_ControlActiveWriters :
    ((withWrite State.reset 0x1D0 0xCC).resetPending = false ∧ (withWrite State.reset 0x1D0 0xCC).ctl.controlActive = false ∧
      ∃ t, step (withWrite State.reset 0x1D0 0xCC) = .next t ∧ t.ctl.controlActive = true) ∧
    ((withWrite updating 0x1D0 0x50).resetPending = false ∧ (withWrite updating 0x1D0 0x50).ctl.controlActive = true ∧
      ∃ t, step (withWrite updating 0x1D0 0x50) = .next t ∧ t.ctl.controlActive = false) :=
  ⟨⟨rfl, rfl, _, rfl, rfl⟩, rfl, rfl, _, rfl, rfl⟩

/-- One step that changes the base port and one that changes the staging byte. -/
theorem witness_BasePortWriters :
    ((withWrite (atBase 0x0240 0x34) 0x1D2 0x02).resetPending = false ∧
      ∃ t, step (withWrite (atBase 0x0240 0x34) 0x1D2 0x02) = .next t ∧
        t.ctl.basePort ≠ (withWrite (atBase 0x0240 0x34) 0x1D2 0x02).ctl.basePort) ∧
    ((withWrite (atBase 0x0240 0x34) 0x1D1 0x55).resetPending = false ∧
      ∃ t, step (withWrite (atBase 0x0240 0x34) 0x1D1 0x55) = .next t ∧
        t.ctl.basePortStagingLow ≠ (withWrite (atBase 0x0240 0x34) 0x1D1 0x55).ctl.basePortStagingLow) := by
  refine ⟨⟨rfl, _, rfl, ?_⟩, rfl, _, rfl, ?_⟩ <;> decide

theorem witness_ReadsChangeOnlyTheCursor :
    (withRead (atString 1) 0x1D2).resetPending = false ∧
    (∃ u, (withRead (atString 1) 0x1D2).popEvent = some (.ior 0x1D2, u)) ∧
    ∃ t, step (withRead (atString 1) 0x1D2) = .next t ∧ t.ctl.stringCursor ≠ (withRead (atString 1) 0x1D2).ctl.stringCursor := by
  refine ⟨rfl, ⟨_, rfl⟩, _, rfl, ?_⟩
  decide

theorem witness_ConfigurationIsFixed : ∃ t, step (withWrite State.reset 0x1D0 0xCC) = .next t := ⟨_, rfl⟩

theorem witness_SelectIsIdempotent : ∃ t, exec (.iowSelect 0xFF) (at_ 0x00 true) = .next t ∧ t ≠ at_ 0x00 true := by
  refine ⟨_, rfl, ?_⟩
  decide

theorem witness_ReadsIgnoreControlActive :
    ∃ t, exec (decodeIor (atString 1).cfg (atString 1).ctl.basePort 0x1D2) (atString 1) = .next t := ⟨_, rfl⟩

theorem witness_UpdateFlagRoutesNothing :
    Transaction.iow 0x1D0 0x50 ≠ Transaction.iow updating.cfg.controlPort 0xFF ∧
    ∃ t, exec (decode updating.cfg updating.ctl.basePort (.iow 0x1D0 0x50)) updating = .next t :=
  ⟨by decide, _, rfl⟩

theorem witness_ReadsIgnoreStagingByte :
    ∃ t, exec (decodeIor (atBase 0x0234 0x99).cfg (atBase 0x0234 0x99).ctl.basePort 0x1D1) (atBase 0x0234 0x99) = .next t :=
  ⟨_, rfl⟩

end Sys2Proof.Tests
end

section
/-!
PROOFS. The configuration and the trace across a step (spec/00_scope.md section 3, R14).
-/

namespace Sys2Proof.Machine

/-- `exec_leaves` read from a known next state. -/
theorem exec_next_leaves {i : Instr} {s t : State} (h : exec i s = .next t) : Leaves s t := by
  obtain ⟨u, hu, hleaves⟩ := exec_leaves i s
  cases h.symm.trans hu
  exact hleaves

/-- Settles O50: a reset and the host's turn leave the configuration and the trace as they are, and a dispatch call only appends
to the trace. -/
theorem configurationIsFixed : Obligations.ConfigurationIsFixed := by
  intro s t h
  obtain ⟨-, ⟨-, rfl⟩ | ⟨-, -, rfl⟩ | ⟨-, tx, u, hpop, hexec⟩⟩ := step_cases s t h
  · exact ⟨s.externalReset_cfg, [], by simp⟩
  · obtain ⟨hcfg, -, -, htrace, -, -⟩ := hostIssue_keeps s
    exact ⟨hcfg, [], by simp [htrace]⟩
  · obtain ⟨hcfg, -, htrace, -, -, -⟩ := popEvent_keeps s tx u hpop
    obtain ⟨hcfg', -, -, -, -, -, effs, heffs⟩ := exec_next_leaves hexec
    exact ⟨hcfg'.trans hcfg, effs, by rw [heffs, htrace]⟩

end Sys2Proof.Machine
end

section
/-!
PROOFS. The new base port of a data-port-high write (spec/30_encoding.md, R100).
-/

namespace Sys2Proof

/-- The two bytes do not overlap, so the OR of R100 is a sum. -/
theorem assembleBase_toNat (h l : Byte) : (assembleBase h l).toNat = 256 * h.toNat + l.toNat := by
  have hword : h.toNat <<< 8 < 2 ^ 16 := by rw [Nat.shiftLeft_eq]; omega
  calc (assembleBase h l).toNat
    _ = h.toNat <<< 8 ||| l.toNat := by
      rw [assembleBase, BitVec.toNat_or, BitVec.toNat_shiftLeft, BitVec.toNat_setWidth_of_le (by decide),
        BitVec.toNat_setWidth_of_le (by decide), Nat.mod_eq_of_lt hword]
    _ = h.toNat <<< 8 + l.toNat := (Nat.shiftLeft_add_eq_or_of_lt l.isLt h.toNat).symm
    _ = 256 * h.toNat + l.toNat := by rw [Nat.shiftLeft_eq, Nat.mul_comm]

theorem Config.writeHighOp_regBase (cfg : Config) : cfg.writeHighOp regBase = .base := if_pos rfl

namespace Machine

/-- R165 as a new Control State and one appended call. -/
theorem commitBase_eq_after (v : Byte) (s : State) :
    commitBase v s = s.after { s.ctl with basePort := assembleBase v s.ctl.basePortStagingLow }
      [.backendRebase (assembleBase v s.ctl.basePortStagingLow)] := by
  simp [commitBase, State.setCtl_eq_after, State.push_eq_after]

theorem writeHigh_of_regBase (v : Byte) (s : State) (hsel : s.ctl.selectedRegister = regBase) :
    writeHigh v s = commitBase v s := by
  rw [writeHigh, hsel, Config.writeHighOp_regBase]

/-- The row and its class run the same fast data-port write, which commits after its response (R105, R124, R165). -/
theorem exec_highWrite_of_regBase (s : State) (v : Byte) (hactive : s.ctl.controlActive = true)
    (hsel : s.ctl.selectedRegister = regBase) :
    ∀ i ∈ [Instr.wrhiBase v, .iowDataHi v],
      exec i s = .next (s.after { s.ctl with basePort := assembleBase v s.ctl.basePortStagingLow }
        [.emit .done, .backendRebase (assembleBase v s.ctl.basePortStagingLow)]) := by
  have hfast : s.ctl.selectedRegister ≠ regFirmware := by rw [hsel]; decide
  have hcommit := commitBase_eq_after v (s.emit .done)
  have hclass := (writeHigh_of_regBase v (s.emit .done) hsel).trans hcommit
  simp only [List.forall_mem_cons]
  exact ⟨congrArg _ (dataWrite_fast s _ _ _ hactive hfast hcommit),
    congrArg _ (dataWrite_fast s _ _ _ hactive hfast hclass), List.forall_mem_nil _⟩

/-- Settles O27: the base port the write commits is the assembled word, whose value is the sum of its two bytes. -/
theorem committedBaseAssembly : Obligations.CommittedBaseAssembly := by
  refine ⟨fun s v hactive hsel i hi => ?_, by decide⟩
  exact ⟨_, exec_highWrite_of_regBase s v hactive hsel i hi, assembleBase_toNat v _⟩

end Machine
end Sys2Proof
end

section
/-!
PROOFS. The backend writes and the unmapped accesses (spec/40_bus_dispatch.md sections 2 and 3, R126 to R128, R135).
-/

namespace Sys2Proof.Machine

/-- A response and the effect after it are one group. -/
theorem State.emit_push_eq_after (s : State) (r : Response) (e : Effect) :
    (s.emit r).push e = s.after s.ctl [.emit r, e] := by
  rw [State.emit_eq_after, State.push_eq_after, State.after_after, State.after_ctl, List.singleton_append]

/-- R126: `Done` stands before the call. -/
theorem exec_iowBackendFast (s : State) (off : Nat) (v : Byte) :
    exec (.iowBackendFast off v) s = .next (s.after s.ctl [.emit .done, .backendWrite off v]) :=
  congrArg Host.Outcome.next (s.emit_push_eq_after .done (.backendWrite off v))

/-- R127: the call stands between `Hold` and `Done`. -/
theorem exec_iowBackendSlow (s : State) (off : Nat) (v : Byte) :
    exec (.iowBackendSlow off v) s = .next (s.after s.ctl [.emit .hold, .backendWrite off v, .emit .done]) :=
  congrArg Host.Outcome.next <|
    calc ((s.emit .hold).push (.backendWrite off v)).emit .done
      _ = (s.after s.ctl [.emit .hold, .backendWrite off v]).emit .done := by rw [State.emit_push_eq_after]
      _ = s.after s.ctl [.emit .hold, .backendWrite off v, .emit .done] := State.after_after s _ _ _ _

/-- R128: no work follows the response. -/
theorem exec_iowUnmapped (s : State) (p : Port) (v : Byte) :
    exec (.iowUnmapped p v) s = .next (s.after s.ctl [.emit .done]) :=
  congrArg Host.Outcome.next (s.emit_eq_after .done)

/-- R135: the response carries no data. -/
theorem exec_iorUnmapped (s : State) (p : Port) :
    exec (.iorUnmapped p) s = .next (s.after s.ctl [.emit .done]) :=
  congrArg Host.Outcome.next (s.emit_eq_after .done)

/-- Settles O37: both writes keep the Control State, and only the place of the call among the responses differs. -/
theorem backendWriteEffects : Obligations.BackendWriteEffects :=
  fun s off v => ⟨exec_iowBackendFast s off v, exec_iowBackendSlow s off v⟩

/-- Settles O39: an unmapped access appends its one response and nothing else. -/
theorem unmappedClassesOnlyRelease : Obligations.UnmappedClassesOnlyRelease :=
  fun s p v => ⟨exec_iowUnmapped s p v, exec_iorUnmapped s p⟩

end Sys2Proof.Machine
end

section
/-!
PROOFS. The canonical words (spec/30_encoding.md sections 1 and 2, D2, D3).
-/

namespace Sys2Proof

/-! ## Transaction words (R91, R92) -/

/-- The fields of R91 do not overlap, so their OR is a sum. -/
theorem Transaction.word_iow_toNat (p : Port) (v : Byte) :
    (Transaction.iow p v).word.toNat = 2 ^ 18 + p.toNat * 2 ^ 8 + v.toNat := by
  have hport : p.toNat <<< 8 % 2 ^ 19 = p.toNat <<< 8 := Nat.mod_eq_of_lt (by rw [Nat.shiftLeft_eq]; omega)
  have hlow : p.toNat <<< 8 ||| v.toNat = p.toNat * 2 ^ 8 + v.toNat := by
    rw [← Nat.shiftLeft_add_eq_or_of_lt v.isLt, Nat.shiftLeft_eq]
  have hall : 1 <<< 18 ||| (p.toNat * 2 ^ 8 + v.toNat) = 2 ^ 18 + (p.toNat * 2 ^ 8 + v.toNat) := by
    rw [← Nat.shiftLeft_add_eq_or_of_lt (by omega), Nat.shiftLeft_eq, Nat.one_mul]
  rw [Transaction.word, BitVec.toNat_or, BitVec.toNat_or, BitVec.toNat_shiftLeft, BitVec.toNat_shiftLeft,
    BitVec.toNat_setWidth_of_le (by decide), BitVec.toNat_setWidth_of_le (by decide), hport, Nat.lor_assoc, hlow,
    Nat.add_assoc, ← hall]
  rfl

theorem Transaction.word_ior_toNat (p : Port) : (Transaction.ior p).word.toNat = p.toNat * 2 ^ 8 := by
  rw [Transaction.word, BitVec.toNat_shiftLeft, BitVec.toNat_setWidth_of_le (by decide), Nat.shiftLeft_eq,
    Nat.mod_eq_of_lt (by omega)]

/-- The direction bit, tested on the word's value. -/
theorem direction_iff (w : BitVec 19) : w.getLsbD 18 = true ↔ 2 ^ 18 ≤ w.toNat := by
  rw [← BitVec.msb_eq_getLsbD_last w, BitVec.msb_eq_decide, decide_eq_true_iff]

theorem Transaction.ofWord_of_iow_toNat {w : BitVec 19} {p : Port} {v : Byte}
    (h : w.toNat = 2 ^ 18 + p.toNat * 2 ^ 8 + v.toNat) : Transaction.ofWord w = .iow p v := by
  have hport : w.extractLsb' 8 10 = p := BitVec.eq_of_toNat_eq (by
    rw [BitVec.extractLsb'_toNat, Nat.shiftRight_eq_div_pow]; omega)
  have hdata : w.extractLsb' 0 8 = v := BitVec.eq_of_toNat_eq (by
    rw [BitVec.extractLsb'_toNat, Nat.shiftRight_zero]; omega)
  rw [Transaction.ofWord, if_pos ((direction_iff w).2 (by omega)), hport, hdata]

/-- R92: whatever the data bits `d` of a read are, its word is read back as the same transaction. -/
theorem Transaction.ofWord_of_ior_toNat {w : BitVec 19} {p : Port} {d : Byte}
    (h : w.toNat = p.toNat * 2 ^ 8 + d.toNat) : Transaction.ofWord w = .ior p := by
  have hport : w.extractLsb' 8 10 = p := BitVec.eq_of_toNat_eq (by
    rw [BitVec.extractLsb'_toNat, Nat.shiftRight_eq_div_pow]; omega)
  rw [Transaction.ofWord, if_neg (mt (direction_iff w).1 (by omega)), hport]

/-- A transaction is read back from its canonical word. -/
@[simp] theorem Transaction.ofWord_word (tx : Transaction) : Transaction.ofWord tx.word = tx := by
  cases tx with
  | iow p v => exact ofWord_of_iow_toNat (word_iow_toNat p v)
  | ior p => exact ofWord_of_ior_toNat (d := 0) (by simp [word_ior_toNat])

/-- Settles O1: the word's value is the sum of its fields, from which port and data are read back by division. -/
theorem transactionWords : Obligations.TransactionWords := by
  refine ⟨Transaction.word_iow_toNat, Transaction.word_ior_toNat, Transaction.ofWord_word, fun p d => ?_⟩
  refine Transaction.ofWord_of_ior_toNat (d := d) ?_
  rw [BitVec.toNat_ofNat, Nat.mod_eq_of_lt (by omega)]

/-! ## Response words (R94, R95) -/

theorem Response.word_hold : Response.hold.word = 0x000 := rfl

theorem Response.word_done : Response.done.word = 0x200 := rfl

/-- The `terminal` and `drive` bits of a `DoneData` stand above its byte. -/
theorem Response.word_doneData_toNat (b : Byte) : (Response.doneData b).word.toNat = 0x300 + b.toNat := by
  have hflags : (BitVec.ofBool true).setWidth 10 <<< 9 ||| (BitVec.ofBool true).setWidth 10 <<< 8 = 0x300#10 := by decide
  calc (Response.doneData b).word.toNat
    _ = (0x300#10 ||| b.setWidth 10).toNat := by
      rw [Response.word, Response.terminal, Response.drive, Response.data, hflags, Option.getD_some]
    _ = 3 <<< 8 ||| b.toNat := by rw [BitVec.toNat_or, BitVec.toNat_setWidth_of_le (by decide)]; rfl
    _ = 0x300 + b.toNat := (Nat.shiftLeft_add_eq_or_of_lt b.isLt 3).symm

/-- The two responses without data have words below every `DoneData`. -/
theorem Response.word_injective {r r' : Response} (h : r.word = r'.word) : r = r' := by
  have hval := congrArg BitVec.toNat h
  have hhold : Response.hold.word.toNat = 0 := rfl
  have hdone : Response.done.word.toNat = 0x200 := rfl
  cases r <;> cases r' <;> simp only [hhold, hdone, Response.word_doneData_toNat] at hval
  case hold.hold | done.done => rfl
  case doneData.doneData b b' => rw [BitVec.eq_of_toNat_eq (x := b) (y := b') (by omega)]
  all_goals omega

/-- Settles O2: the three words, and that their values keep the responses apart. -/
theorem responseWords : Obligations.ResponseWords :=
  ⟨Response.word_hold, Response.word_done, Response.word_doneData_toNat, fun _ _ => Response.word_injective⟩

end Sys2Proof
end

section
/-!
PROOFS. The first level of the decode (spec/30_encoding.md sections 3 and 4, D10, D13) and its inverse, the bus cycle of a class.
-/

namespace Sys2Proof

theorem Config.mem_ctrlPorts (cfg : Config) (p : Port) :
    p ∈ cfg.ctrlPorts ↔ p = cfg.controlPort ∨ p = cfg.dataLowPort ∨ p = cfg.dataHighPort := by
  simp [Config.ctrlPorts]

/-! ## The region test (R98) -/

/-- An offset outside the region is in no entry of its table. -/
theorem Config.entryAt_eq_none (cfg : Config) (off : Nat) :
    cfg.entryAt off = none ↔ ∀ e ∈ cfg.region, e.off ≠ off := by
  simp [Config.entryAt]

/-- D13: a port at no entry of the region table has no offset. -/
theorem Config.offset?_none_of_entries {cfg : Config} {base : Word16} {p : Port}
    (h : ∀ e ∈ cfg.region, p.toNat ≠ base.toNat + e.off) : cfg.offset? base p = none := by
  refine (cfg.offset?_eq_none base p).2 fun off hp => ?_
  have hnone : cfg.entryAt off = none :=
    (cfg.entryAt_eq_none off).2 fun e he heq => h e he (by rw [heq, hp])
  rw [Config.hasOffset, hnone, Option.isSome_none]

/-- D31: above the last port there is no region. -/
theorem Config.offset?_none_of_base {cfg : Config} {base : Word16} (p : Port) (h : 0x3FF < base.toNat) :
    cfg.offset? base p = none :=
  (cfg.offset?_eq_none base p).2 fun _ hp => absurd hp (by omega)

theorem Config.offset?_of_entry {cfg : Config} {base : Word16} {p : Port} {off : Nat} {e : RegionEntry}
    (hp : p.toNat = base.toNat + off) (he : cfg.entryAt off = some e) : cfg.offset? base p = some off :=
  (cfg.offset?_eq_some base p off).2 ⟨hp, by rw [Config.hasOffset, he, Option.isSome_some]⟩

theorem Config.writeFast_of_entry {cfg : Config} {off : Nat} {e : RegionEntry} (he : cfg.entryAt off = some e) :
    cfg.writeFast off = e.fast := by
  rw [Config.writeFast, he]

theorem Config.sentinelAt_of_entry {cfg : Config} {off : Nat} {e : RegionEntry} (he : cfg.entryAt off = some e) :
    cfg.sentinelAt off = e.sentinel := by
  rw [Config.sentinelAt, he]

/-- The condition column's `unmapped` is what the decoder asks of a port. -/
theorem Config.unmapped_iff (cfg : Config) (base : Word16) (p : Port) :
    cfg.unmapped base p = true ↔ p ∉ cfg.ctrlPorts ∧ cfg.offset? base p = none := by
  simp [Config.unmapped, Config.inRegion]

/-- The condition column's `reachable` is what the decoder asks of the offset's port. -/
theorem Config.reachable_iff (cfg : Config) (base : Word16) (off : Nat) :
    cfg.reachable base off = true ↔
      (regionPort base off).toNat = base.toNat + off ∧ regionPort base off ∉ cfg.ctrlPorts := by
  have hport : (regionPort base off).toNat = base.toNat + off ↔ base.toNat + off < 1024 := by
    rw [regionPort, BitVec.toNat_ofNat]; omega
  rw [hport, Config.reachable, Bool.and_eq_true, Bool.not_eq_true', decide_eq_true_iff, decide_eq_false_iff_not]
  rfl

/-- A port with an offset is the port of that offset. -/
theorem Config.regionPort_of_offset? {cfg : Config} {base : Word16} {p : Port} {off : Nat}
    (h : cfg.offset? base p = some off) : regionPort base off = p ∧ cfg.hasOffset off = true := by
  obtain ⟨hp, hoff⟩ := (cfg.offset?_eq_some base p off).1 h
  exact ⟨by rw [regionPort, ← hp, BitVec.ofNat_toNat, BitVec.setWidth_eq], hoff⟩

/-! ## The classes of the writes (R96), one equation per row of the table -/

theorem decodeIow_unlock (cfg : Config) (base : Word16) : decodeIow cfg base cfg.controlPort unlockByte = .iowUnlock := by
  simp [decodeIow]

theorem decodeIow_select (cfg : Config) (base : Word16) {v : Byte} (hv : v ≠ unlockByte) :
    decodeIow cfg base cfg.controlPort v = .iowSelect v := by
  rw [decodeIow, if_pos rfl, if_neg hv]

theorem decodeIow_dataLo {cfg : Config} (base : Word16) (v : Byte) (hc : cfg.dataLowPort ≠ cfg.controlPort) :
    decodeIow cfg base cfg.dataLowPort v = .iowDataLo v := by
  rw [decodeIow, if_neg hc, if_pos rfl]

theorem decodeIow_dataHi {cfg : Config} (base : Word16) (v : Byte) (hc : cfg.dataHighPort ≠ cfg.controlPort)
    (hl : cfg.dataHighPort ≠ cfg.dataLowPort) : decodeIow cfg base cfg.dataHighPort v = .iowDataHi v := by
  rw [decodeIow, if_neg hc, if_neg hl, if_pos rfl]

theorem decodeIow_backend {cfg : Config} {base : Word16} {p : Port} {off : Nat} (v : Byte) (hp : p ∉ cfg.ctrlPorts)
    (hoff : cfg.offset? base p = some off) :
    decodeIow cfg base p v = if cfg.writeFast off then .iowBackendFast off v else .iowBackendSlow off v := by
  simp only [Config.mem_ctrlPorts, not_or] at hp
  rw [decodeIow, if_neg hp.1, if_neg hp.2.1, if_neg hp.2.2, hoff]

theorem decodeIow_unmapped {cfg : Config} {base : Word16} {p : Port} (v : Byte) (hp : p ∉ cfg.ctrlPorts)
    (hoff : cfg.offset? base p = none) : decodeIow cfg base p v = .iowUnmapped p v := by
  simp only [Config.mem_ctrlPorts, not_or] at hp
  rw [decodeIow, if_neg hp.1, if_neg hp.2.1, if_neg hp.2.2, hoff]

/-- Settles O6: each row of the table is one equation of the decoder; the region's rows go through its entry for the offset. -/
theorem iowDecodeTable : Obligations.IowDecodeTable := by
  intro cfg base p v
  refine ⟨?_, ?_, ?_, ?_, fun hc hl hh => ?_⟩
  · rintro rfl rfl
    exact decodeIow_unlock cfg base
  · rintro rfl hv
    exact decodeIow_select cfg base hv
  · rintro hc rfl
    exact decodeIow_dataLo base v hc
  · rintro hc hl rfl
    exact decodeIow_dataHi base v hc hl
  · have hp : p ∉ cfg.ctrlPorts := by rw [cfg.mem_ctrlPorts]; tauto
    refine ⟨fun off e hoff he => ?_, fun hnone => decodeIow_unmapped v hp (Config.offset?_none_of_entries hnone)⟩
    rw [decodeIow_backend v hp (Config.offset?_of_entry hoff he), Config.writeFast_of_entry he]

/-! ## The classes of the reads (R97) -/

theorem decodeIor_ctrl (cfg : Config) (base : Word16) : decodeIor cfg base cfg.controlPort = .iorCtrl := by
  simp [decodeIor]

theorem decodeIor_dataLo {cfg : Config} (base : Word16) (hc : cfg.dataLowPort ≠ cfg.controlPort) :
    decodeIor cfg base cfg.dataLowPort = .iorDataLo := by
  rw [decodeIor, if_neg hc, if_pos rfl]

theorem decodeIor_dataHi {cfg : Config} (base : Word16) (hc : cfg.dataHighPort ≠ cfg.controlPort)
    (hl : cfg.dataHighPort ≠ cfg.dataLowPort) : decodeIor cfg base cfg.dataHighPort = .iorDataHi := by
  rw [decodeIor, if_neg hc, if_neg hl, if_pos rfl]

theorem decodeIor_sentinel {cfg : Config} {base : Word16} {p : Port} {off : Nat} {b : Byte} (hp : p ∉ cfg.ctrlPorts)
    (hoff : cfg.offset? base p = some off) (hs : cfg.sentinelAt off = some b) :
    decodeIor cfg base p = .iorBackendSentinel off b := by
  simp only [Config.mem_ctrlPorts, not_or] at hp
  simp only [decodeIor, hp, hoff, hs, if_false]

theorem decodeIor_backend {cfg : Config} {base : Word16} {p : Port} {off : Nat} (hp : p ∉ cfg.ctrlPorts)
    (hoff : cfg.offset? base p = some off) (hs : cfg.sentinelAt off = none) : decodeIor cfg base p = .iorBackend off := by
  simp only [Config.mem_ctrlPorts, not_or] at hp
  simp only [decodeIor, hp, hoff, hs, if_false]

theorem decodeIor_unmapped {cfg : Config} {base : Word16} {p : Port} (hp : p ∉ cfg.ctrlPorts)
    (hoff : cfg.offset? base p = none) : decodeIor cfg base p = .iorUnmapped p := by
  simp only [Config.mem_ctrlPorts, not_or] at hp
  rw [decodeIor, if_neg hp.1, if_neg hp.2.1, if_neg hp.2.2, hoff]

/-- Settles O7: as the table of the writes, with the sentinel of the offset's entry. -/
theorem iorDecodeTable : Obligations.IorDecodeTable := by
  intro cfg base p
  refine ⟨?_, ?_, ?_, fun hc hl hh => ?_⟩
  · rintro rfl
    exact decodeIor_ctrl cfg base
  · rintro hc rfl
    exact decodeIor_dataLo base hc
  · rintro hc hl rfl
    exact decodeIor_dataHi base hc hl
  · have hp : p ∉ cfg.ctrlPorts := by rw [cfg.mem_ctrlPorts]; tauto
    refine ⟨fun off e b hoff he hs => ?_, fun off e hoff he hs => ?_, fun hnone => ?_⟩
    · exact decodeIor_sentinel hp (Config.offset?_of_entry hoff he) ((Config.sentinelAt_of_entry he).trans hs)
    · exact decodeIor_backend hp (Config.offset?_of_entry hoff he) ((Config.sentinelAt_of_entry he).trans hs)
    · exact decodeIor_unmapped hp (Config.offset?_none_of_entries hnone)

/-! ## What a decoded class is -/

/-- What the opcode table says of a class and the transaction it was decoded from. -/
structure Instr.ClassOf (cfg : Config) (base : Word16) (tx : Transaction) (i : Instr) : Prop where
  isClass : i.isClass = true
  wf : i.wf cfg = true
  applies : ∀ active sel, i.appliesIn cfg active sel base = true
  transaction : i.transaction cfg base = tx

theorem Config.reachable_of_offset? {cfg : Config} {base : Word16} {p : Port} {off : Nat} (hp : p ∉ cfg.ctrlPorts)
    (hoff : cfg.offset? base p = some off) : cfg.reachable base off = true := by
  obtain ⟨hport, -⟩ := Config.regionPort_of_offset? hoff
  rw [Config.reachable_iff, hport]
  exact ⟨((cfg.offset?_eq_some base p off).1 hoff).1, hp⟩

theorem decodeIow_classOf (cfg : Config) (base : Word16) (p : Port) (v : Byte) :
    (decodeIow cfg base p v).ClassOf cfg base (.iow p v) := by
  by_cases hp : p ∈ cfg.ctrlPorts
  · by_cases hc : p = cfg.controlPort
    · subst hc
      by_cases hv : v = unlockByte
      · rw [hv, decodeIow_unlock]
        exact ⟨rfl, rfl, fun _ _ => rfl, rfl⟩
      · rw [decodeIow_select cfg base hv]
        exact ⟨rfl, bne_iff_ne.2 hv, fun _ _ => rfl, rfl⟩
    · by_cases hl : p = cfg.dataLowPort
      · subst hl
        rw [decodeIow_dataLo base v hc]
        exact ⟨rfl, rfl, fun _ _ => rfl, rfl⟩
      · obtain rfl : p = cfg.dataHighPort := by rw [cfg.mem_ctrlPorts] at hp; tauto
        rw [decodeIow_dataHi base v hc hl]
        exact ⟨rfl, rfl, fun _ _ => rfl, rfl⟩
  · cases hoff : cfg.offset? base p with
    | none =>
      rw [decodeIow_unmapped v hp hoff]
      exact ⟨rfl, rfl, fun _ _ => (cfg.unmapped_iff base p).2 ⟨hp, hoff⟩, rfl⟩
    | some off =>
      obtain ⟨hport, hmem⟩ := Config.regionPort_of_offset? hoff
      rw [decodeIow_backend v hp hoff]
      have happ := Config.reachable_of_offset? hp hoff
      cases hfast : cfg.writeFast off
      · exact ⟨rfl, by simp [Instr.wf, hmem, hfast], fun _ _ => happ, by simp [Instr.transaction, hport]⟩
      · exact ⟨rfl, by simp [Instr.wf, hmem, hfast], fun _ _ => happ, by simp [Instr.transaction, hport]⟩

theorem decodeIor_classOf (cfg : Config) (base : Word16) (p : Port) :
    (decodeIor cfg base p).ClassOf cfg base (.ior p) := by
  by_cases hp : p ∈ cfg.ctrlPorts
  · by_cases hc : p = cfg.controlPort
    · subst hc
      rw [decodeIor_ctrl]
      exact ⟨rfl, rfl, fun _ _ => rfl, rfl⟩
    · by_cases hl : p = cfg.dataLowPort
      · subst hl
        rw [decodeIor_dataLo base hc]
        exact ⟨rfl, rfl, fun _ _ => rfl, rfl⟩
      · obtain rfl : p = cfg.dataHighPort := by rw [cfg.mem_ctrlPorts] at hp; tauto
        rw [decodeIor_dataHi base hc hl]
        exact ⟨rfl, rfl, fun _ _ => rfl, rfl⟩
  · cases hoff : cfg.offset? base p with
    | none =>
      rw [decodeIor_unmapped hp hoff]
      exact ⟨rfl, rfl, fun _ _ => (cfg.unmapped_iff base p).2 ⟨hp, hoff⟩, rfl⟩
    | some off =>
      obtain ⟨hport, hmem⟩ := Config.regionPort_of_offset? hoff
      have happ := Config.reachable_of_offset? hp hoff
      cases hs : cfg.sentinelAt off with
      | none =>
        rw [decodeIor_backend hp hoff hs]
        exact ⟨rfl, by simp [Instr.wf, hmem, hs], fun _ _ => happ, by simp [Instr.transaction, hport]⟩
      | some b =>
        rw [decodeIor_sentinel hp hoff hs]
        exact ⟨rfl, by simp [Instr.wf, hmem, hs], fun _ _ => happ, by simp [Instr.transaction, hport]⟩

theorem decode_classOf (cfg : Config) (base : Word16) (tx : Transaction) :
    (decode cfg base tx).ClassOf cfg base tx := by
  cases tx with
  | iow p v => exact decodeIow_classOf cfg base p v
  | ior p => exact decodeIor_classOf cfg base p

/-- Settles O4: whichever row of its table a transaction meets, the row's operands and condition hold. -/
theorem decodeGivesAdmittedClass : Obligations.DecodeGivesAdmittedClass := by
  intro cfg active sel base tx
  obtain ⟨hclass, hwf, happ, htx⟩ := decode_classOf cfg base tx
  exact ⟨hclass, hwf, happ active sel, htx⟩

/-- A decoded class has a reachable offset, if it has one. -/
theorem base_add_le_of_reachable {cfg : Config} {base : Word16} {off : Nat} (h : cfg.reachable base off = true) :
    base.toNat + off ≤ 0x3FF := by
  rw [← ((cfg.reachable_iff base off).1 h).1]
  omega

/-- Settles O8: a decoded backend class is reachable, so its offset's port exists; a base port above 0x3FF has no offset. -/
theorem regionPastPortsUnreachable : Obligations.RegionPastPortsUnreachable := by
  intro cfg base p v
  refine ⟨fun off hpast => ?_, fun hbase hp => ?_⟩
  · have hreach : cfg.reachable base off ≠ true := fun h => absurd (base_add_le_of_reachable h) (by omega)
    have hiow := (decodeIow_classOf cfg base p v).applies false 0
    have hior := (decodeIor_classOf cfg base p).applies false 0
    refine ⟨fun h => ?_, fun h => ?_, fun h => ?_, fun b h => ?_⟩
    · exact hreach (by rwa [h] at hiow)
    · exact hreach (by rwa [h] at hiow)
    · exact hreach (by rwa [h] at hior)
    · exact hreach (by rwa [h] at hior)
  · have hoff := Config.offset?_none_of_base (cfg := cfg) p hbase
    exact ⟨decodeIow_unmapped v hp hoff, decodeIor_unmapped hp hoff⟩

/-! ## Encoding a class and decoding it -/

/-- The port of an admitted offset is decoded to that offset. -/
theorem Config.offset?_regionPort {cfg : Config} {base : Word16} {off : Nat} (hreach : cfg.reachable base off = true)
    (hoff : cfg.hasOffset off = true) :
    regionPort base off ∉ cfg.ctrlPorts ∧ cfg.offset? base (regionPort base off) = some off := by
  obtain ⟨hport, hctrl⟩ := (cfg.reachable_iff base off).1 hreach
  exact ⟨hctrl, (cfg.offset?_eq_some base _ off).2 ⟨hport, hoff⟩⟩

/-- The bus cycle of an admitted class decodes to that class (R96, R97). -/
theorem decode_transaction {cfg : Config} {active : Bool} {sel : Byte} {base : Word16} {i : Instr} (hcfg : cfg.wf = true)
    (hclass : i.isClass = true) (hwf : i.wf cfg = true) (happ : i.appliesIn cfg active sel base = true) :
    decode cfg base (i.transaction cfg base) = i := by
  obtain ⟨hlc, hhc, hhl⟩ := cfg.ports_ne hcfg
  cases i with
  | iowUnlock => exact decodeIow_unlock cfg base
  | iowSelect v => exact decodeIow_select cfg base (bne_iff_ne.1 hwf)
  | iowDataLo v => exact decodeIow_dataLo base v hlc.symm
  | iowDataHi v => exact decodeIow_dataHi base v hhc.symm hhl.symm
  | iowBackendFast off v =>
    obtain ⟨hmem, hfast⟩ := Bool.and_eq_true_iff.1 hwf
    obtain ⟨hctrl, hoff⟩ := Config.offset?_regionPort happ hmem
    exact (decodeIow_backend v hctrl hoff).trans (if_pos hfast)
  | iowBackendSlow off v =>
    obtain ⟨hmem, hslow⟩ := Bool.and_eq_true_iff.1 hwf
    obtain ⟨hctrl, hoff⟩ := Config.offset?_regionPort happ hmem
    exact (decodeIow_backend v hctrl hoff).trans (if_neg (by simpa using hslow))
  | iowUnmapped p v =>
    obtain ⟨hctrl, hoff⟩ := (cfg.unmapped_iff base p).1 happ
    exact decodeIow_unmapped v hctrl hoff
  | iorCtrl => exact decodeIor_ctrl cfg base
  | iorDataLo => exact decodeIor_dataLo base hlc.symm
  | iorDataHi => exact decodeIor_dataHi base hhc.symm hhl.symm
  | iorBackendSentinel off b =>
    obtain ⟨hmem, hs⟩ := Bool.and_eq_true_iff.1 hwf
    obtain ⟨hctrl, hoff⟩ := Config.offset?_regionPort happ hmem
    exact decodeIor_sentinel hctrl hoff (beq_iff_eq.1 hs)
  | iorBackend off =>
    obtain ⟨hmem, hs⟩ := Bool.and_eq_true_iff.1 hwf
    obtain ⟨hctrl, hoff⟩ := Config.offset?_regionPort happ hmem
    exact decodeIor_backend hctrl hoff (Option.isNone_iff_eq_none.1 hs)
  | iorUnmapped p =>
    obtain ⟨hctrl, hoff⟩ := (cfg.unmapped_iff base p).1 happ
    exact decodeIor_unmapped hctrl hoff
  | _ => cases hclass

/-- Settles O3: the canonical word is read back as the class's bus cycle, which decodes to the class. -/
theorem decodeEncodeClasses : Obligations.DecodeEncodeClasses := by
  intro cfg active sel base i hcfg hclass hwf happ
  rw [encode, Transaction.ofWord_word]
  exact decode_transaction hcfg hclass hwf happ

/-- Settles O9: the nine words are evaluated in EX, the configuration in which spec/95 writes them. -/
theorem sampleWordsDecode : Obligations.SampleWordsDecode := by
  unfold Obligations.SampleWordsDecode
  decide

end Sys2Proof
end

section
/-!
PROOFS. The second level of the decode (spec/30_encoding.md section 4, R101): the rows of each class, and that a class does what
its row does (spec/41_control_protocol.md section 1; log entry 11).
-/

namespace Sys2Proof

/-! ## The rows whose condition is no single register -/

theorem Config.not_recognized {cfg : Config} {v : Byte} (h : cfg.recognized v = false) :
    v ≠ regMagic ∧ v ≠ regVersion ∧ v ≠ regString ∧ v ≠ regType ∧ v ≠ regBase ∧ v ≠ regFirmware ∧ v ∉ cfg.tuningRegs := by
  simpa only [not_or] using mt (cfg.recognized_iff v).2 (by rw [h]; decide)

theorem selectInstr_tuning {cfg : Config} {r : Byte} (hcfg : cfg.wf = true) (hr : r ∈ cfg.tuningRegs) :
    selectInstr cfg r = .selTuning r := by
  obtain ⟨h0, h1, h2, h3, h4, -, hf⟩ := cfg.tuning_not_fixed hcfg r hr
  rw [selectInstr, Config.selectOp, if_neg h0, if_neg h1, if_neg h2, if_neg h3, if_neg h4, if_neg hf, if_pos hr]

theorem selectInstr_unrecognized {cfg : Config} {v : Byte} (h : cfg.recognized v = false) :
    selectInstr cfg v = .selUnrecognized v := by
  obtain ⟨h0, h1, h2, h3, h4, hf, ht⟩ := Config.not_recognized h
  rw [selectInstr, Config.selectOp, if_neg h0, if_neg h1, if_neg h2, if_neg h3, if_neg h4, if_neg hf, if_neg ht]

theorem writeLowInstr_ignored {sel : Byte} (v : Byte) (h : sel ≠ regBase) : writeLowInstr sel v = .wrloIgnored v := by
  rw [writeLowInstr, writeLowOp, if_neg h]

/-- D25: the four read-only registers. -/
theorem writeHighInstr_ignored (cfg : Config) {sel : Byte} (v : Byte)
    (h : sel ∈ ([regMagic, regVersion, regString, regType] : List Byte)) : writeHighInstr cfg sel v = .wrhiIgnored v := by
  have hnot : sel ≠ regBase ∧ sel ≠ regFirmware := by
    constructor <;> (rintro rfl; revert h; decide)
  rw [writeHighInstr, Config.writeHighOp, if_neg hnot.1, if_neg hnot.2, if_pos h]

theorem not_readOnly {sel : Byte} (h0 : sel ≠ regMagic) (h1 : sel ≠ regVersion) (h2 : sel ≠ regString) (h3 : sel ≠ regType) :
    sel ∉ ([regMagic, regVersion, regString, regType] : List Byte) := by
  simp only [List.mem_cons, List.not_mem_nil, h0, h1, h2, h3, or_self, not_false_eq_true]

theorem writeHighInstr_tuning {cfg : Config} {sel : Byte} (v : Byte) (hcfg : cfg.wf = true) (h : sel ∈ cfg.tuningRegs) :
    writeHighInstr cfg sel v = .wrhiTuning v := by
  obtain ⟨h0, h1, h2, h3, h4, -, hf⟩ := cfg.tuning_not_fixed hcfg sel h
  rw [writeHighInstr, Config.writeHighOp, if_neg h4, if_neg hf, if_neg (not_readOnly h0 h1 h2 h3), if_pos h]

theorem writeHighInstr_unrecognized {cfg : Config} {sel : Byte} (v : Byte) (h : cfg.recognized sel = false) :
    writeHighInstr cfg sel v = .wrhiUnrecognized v := by
  obtain ⟨h0, h1, h2, h3, h4, hf, ht⟩ := Config.not_recognized h
  rw [writeHighInstr, Config.writeHighOp, if_neg h4, if_neg hf, if_neg (not_readOnly h0 h1 h2 h3), if_neg ht]

theorem readHighInstr_tuning {cfg : Config} {sel : Byte} (hcfg : cfg.wf = true) (h : sel ∈ cfg.tuningRegs) :
    readHighInstr cfg sel = .rdhiTuning := by
  obtain ⟨h0, h1, h2, h3, h4, -, hf⟩ := cfg.tuning_not_fixed hcfg sel h
  rw [readHighInstr, Config.readHighOp, if_neg h0, if_neg h1, if_neg h2, if_neg h3, if_neg h4, if_neg hf, if_pos h]

theorem readHighInstr_unrecognized {cfg : Config} {sel : Byte} (h : cfg.recognized sel = false) :
    readHighInstr cfg sel = .rdhiUnrecognized := by
  obtain ⟨h0, h1, h2, h3, h4, hf, ht⟩ := Config.not_recognized h
  rw [readHighInstr, Config.readHighOp, if_neg h0, if_neg h1, if_neg h2, if_neg h3, if_neg h4, if_neg hf, if_neg ht]

theorem readLowInstr_other {sel : Byte} (h : sel ≠ regBase) : readLowInstr sel = .rdloOther := by
  rw [readLowInstr, readLowOp, if_neg h]

/-! ## The class of a row -/

/-- The class whose bus cycle carries a row, and a class itself (the column `parent` of spec/opcode_table.json). -/
def Instr.parent : Instr → Instr
  | .selMagic => .iowSelect regMagic
  | .selVersion => .iowSelect regVersion
  | .selString => .iowSelect regString
  | .selType => .iowSelect regType
  | .selBase => .iowSelect regBase
  | .selFw => .iowSelect regFirmware
  | .selTuning v | .selUnrecognized v => .iowSelect v
  | .wrloBase v | .wrloIgnored v => .iowDataLo v
  | .wrhiBase v | .wrhiFw v | .wrhiTuning v | .wrhiIgnored v | .wrhiUnrecognized v => .iowDataHi v
  | .rdhiMagic | .rdhiVersion | .rdhiString | .rdhiType | .rdhiBase | .rdhiFw | .rdhiTuning | .rdhiUnrecognized => .iorDataHi
  | .rdloBase | .rdloOther => .iorDataLo
  | i => i

/-- A row and its class are the same bus cycle. -/
theorem Instr.parent_transaction (cfg : Config) (base : Word16) (i : Instr) :
    i.parent.transaction cfg base = i.transaction cfg base := by
  cases i <;> rfl

/-- The class of a row has no condition, and is unlike a select of the unlock byte. -/
theorem Instr.parent_admitted {cfg : Config} {i : Instr} (hcfg : cfg.wf = true) (hrow : i.isClass = false)
    (hwf : i.wf cfg = true) :
    i.parent.isClass = true ∧ i.parent.wf cfg = true ∧ ∀ active sel base, i.parent.appliesIn cfg active sel base = true := by
  cases i
  case selTuning r =>
    obtain ⟨-, -, -, -, -, hunlock, -⟩ := cfg.tuning_not_fixed hcfg r (of_decide_eq_true hwf)
    exact ⟨rfl, bne_iff_ne.2 hunlock, fun _ _ _ => rfl⟩
  case selUnrecognized v => exact ⟨rfl, (Bool.and_eq_true_iff.1 hwf).2, fun _ _ _ => rfl⟩
  case iowUnlock | iowSelect | iowDataLo | iowDataHi | iowBackendFast | iowBackendSlow | iowUnmapped | iorCtrl | iorDataLo |
    iorDataHi | iorBackendSentinel | iorBackend | iorUnmapped => cases hrow
  all_goals exact ⟨rfl, rfl, fun _ _ _ => rfl⟩

/-- R101: where the condition of a row holds, the second level of the decode gives it for its class. -/
theorem refine_parent {cfg : Config} {active : Bool} {sel : Byte} {base : Word16} {i : Instr} (hcfg : cfg.wf = true)
    (hwf : i.wf cfg = true) (hrow : i.isClass = false) (happ : i.appliesIn cfg active sel base = true) :
    refine cfg active sel i.parent = i := by
  cases i
  case selMagic | selVersion | selString | selType | selBase | selFw => exact if_pos happ
  case selTuning r => exact (if_pos happ).trans (selectInstr_tuning hcfg (of_decide_eq_true hwf))
  case selUnrecognized v =>
    exact (if_pos happ).trans (selectInstr_unrecognized ((Bool.not_eq_true' _).mp (Bool.and_eq_true_iff.1 hwf).1))
  case wrloBase v | wrhiBase v | wrhiFw v =>
    obtain ⟨hactive, hsel⟩ := Bool.and_eq_true_iff.1 happ
    rw [beq_iff_eq.1 hsel]
    exact if_pos hactive
  case wrloIgnored v =>
    obtain ⟨hactive, hsel⟩ := Bool.and_eq_true_iff.1 happ
    exact (if_pos hactive).trans (writeLowInstr_ignored v (bne_iff_ne.1 hsel))
  case wrhiTuning v =>
    obtain ⟨hactive, hsel⟩ := Bool.and_eq_true_iff.1 happ
    exact (if_pos hactive).trans (writeHighInstr_tuning v hcfg (of_decide_eq_true hsel))
  case wrhiIgnored v =>
    obtain ⟨hactive, hsel⟩ := Bool.and_eq_true_iff.1 happ
    exact (if_pos hactive).trans (writeHighInstr_ignored cfg v (of_decide_eq_true hsel))
  case wrhiUnrecognized v =>
    obtain ⟨hactive, hsel⟩ := Bool.and_eq_true_iff.1 happ
    exact (if_pos hactive).trans (writeHighInstr_unrecognized v ((Bool.not_eq_true' _).mp hsel))
  case rdhiMagic | rdhiVersion | rdhiString | rdhiType | rdhiBase | rdhiFw | rdloBase =>
    rw [beq_iff_eq.1 happ]
    rfl
  case rdhiTuning => exact readHighInstr_tuning hcfg (of_decide_eq_true happ)
  case rdhiUnrecognized => exact readHighInstr_unrecognized ((Bool.not_eq_true' _).mp happ)
  case rdloOther => exact readLowInstr_other (bne_iff_ne.1 happ)
  all_goals cases hrow

/-- Settles O5: the row's word is its class's, so the first level gives the class, which the second level refines to the row. -/
theorem decodeEncodeOperations : Obligations.DecodeEncodeOperations := by
  intro cfg active sel base i hcfg hrow hwf happ
  obtain ⟨hclass, hpwf, hpapp⟩ := Instr.parent_admitted hcfg hrow hwf
  rw [encode, Transaction.ofWord_word, decodeFull, ← Instr.parent_transaction,
    decode_transaction hcfg hclass hpwf (hpapp active sel base)]
  exact refine_parent hcfg hwf hrow happ

namespace Machine

/-! ## A class does what its row does -/

theorem whenUnlocked_congr {s : State} {op op' : State → State} (h : op s = op' s) :
    s.whenUnlocked op = s.whenUnlocked op' := by
  rw [State.whenUnlocked, State.whenUnlocked, h]

theorem controlWrite_congr {s : State} {op op' : State → State} (h : op (s.emit .hold) = op' (s.emit .hold)) :
    s.controlWrite op = s.controlWrite op' := by
  rw [State.controlWrite, State.controlWrite, h]

theorem dataWrite_congr {s : State} {op op' : State → State} (h : ∀ r, op (s.emit r) = op' (s.emit r)) :
    s.dataWrite op = s.dataWrite op' := by
  rw [State.dataWrite, State.dataWrite, whenUnlocked_congr (h .hold), whenUnlocked_congr (h .done)]

theorem mappedRead_congr {s : State} {op op' : State → Byte × State} (h : op (s.emit .hold) = op' (s.emit .hold)) :
    s.mappedRead op = s.mappedRead op' := by
  rw [State.mappedRead, State.mappedRead, h]

theorem exec_selectInstr (s : State) (v : Byte) : exec (selectInstr s.cfg v) s = exec (.iowSelect v) s := by
  cases h : s.cfg.selectOp v <;> rw [selectInstr, h] <;>
    exact congrArg Host.Outcome.next (controlWrite_congr (whenUnlocked_congr (by rw [select, State.emit_cfg, h])))

theorem exec_writeLowInstr (s : State) (v : Byte) :
    exec (writeLowInstr s.ctl.selectedRegister v) s = exec (.iowDataLo v) s := by
  cases h : writeLowOp s.ctl.selectedRegister <;> rw [writeLowInstr, h] <;>
    exact congrArg Host.Outcome.next (dataWrite_congr fun r => by rw [writeLow, State.emit_ctl, h])

theorem exec_writeHighInstr (s : State) (v : Byte) :
    exec (writeHighInstr s.cfg s.ctl.selectedRegister v) s = exec (.iowDataHi v) s := by
  cases h : s.cfg.writeHighOp s.ctl.selectedRegister <;> rw [writeHighInstr, h] <;>
    exact congrArg Host.Outcome.next (dataWrite_congr fun r => by rw [writeHigh, State.emit_cfg, State.emit_ctl, h])

theorem exec_readHighInstr (s : State) : exec (readHighInstr s.cfg s.ctl.selectedRegister) s = exec .iorDataHi s := by
  cases h : s.cfg.readHighOp s.ctl.selectedRegister <;> rw [readHighInstr, h] <;>
    exact congrArg Host.Outcome.next (mappedRead_congr (by rw [readHigh, State.emit_cfg, State.emit_ctl, h]))

theorem exec_readLowInstr (s : State) : exec (readLowInstr s.ctl.selectedRegister) s = exec .iorDataLo s := by
  cases h : readLowOp s.ctl.selectedRegister <;> rw [readLowInstr, h] <;>
    exact congrArg Host.Outcome.next (mappedRead_congr (by rw [readLow, State.emit_ctl, h]))

/-- Settles O40: the five classes with a second level, the writes while unlocked; every other instruction is its own row. -/
theorem classRunsItsOperation : Obligations.ClassRunsItsOperation := by
  intro i s
  cases i
  case iowSelect v =>
    cases hactive : s.ctl.controlActive
    · rfl
    · exact exec_selectInstr s v
  case iowDataLo v =>
    cases hactive : s.ctl.controlActive
    · rfl
    · exact exec_writeLowInstr s v
  case iowDataHi v =>
    cases hactive : s.ctl.controlActive
    · rfl
    · exact exec_writeHighInstr s v
  case iorDataLo => exact exec_readLowInstr s
  case iorDataHi => exact exec_readHighInstr s
  all_goals rfl

end Machine
end Sys2Proof
end

section
/-!
PROOFS. The control-port writes: the unlock and the selects (spec/40_bus_dispatch.md section 2, spec/41_control_protocol.md
sections 2 and 3).
-/

namespace Sys2Proof.Machine

/-! ## The unlock -/

/-- Settles O17: R122's responses around the one field R151 sets. -/
theorem unlockSetsControlActive : Obligations.UnlockSetsControlActive := fun s =>
  congrArg Host.Outcome.next (controlWrite_eq s unlock { s.ctl with controlActive := true } [] (State.setCtl_eq_after _ _))

/-! ## The rows of the selects -/

/-- Every select, class or row, is one gated operation between the responses of the control-port write. -/
theorem exec_select_eq_controlWrite (s : State) (v : Byte) :
    ∀ i ∈ [Instr.iowSelect v, .selMagic, .selVersion, .selString, .selType, .selBase, .selFw, .selTuning v, .selUnrecognized v],
      ∃ op, exec i s = .next (s.controlWrite fun t => t.whenUnlocked op) := by
  simp only [List.forall_mem_cons]
  exact ⟨⟨_, rfl⟩, ⟨_, rfl⟩, ⟨_, rfl⟩, ⟨_, rfl⟩, ⟨_, rfl⟩, ⟨_, rfl⟩, ⟨_, rfl⟩, ⟨_, rfl⟩, ⟨_, rfl⟩, List.forall_mem_nil _⟩

/-- Settles O18: the gate drops the operation of every select and keeps its responses. -/
theorem lockedSelectIgnored : Obligations.LockedSelectIgnored := by
  intro s v hlocked i hi
  obtain ⟨op, hop⟩ := exec_select_eq_controlWrite s v i hi
  rw [hop, controlWrite_locked s op hlocked]

/-- A select that makes no call, run while unlocked. -/
theorem controlWrite_setCtl {s : State} {op : State → State} {c : ControlState} (hactive : s.ctl.controlActive = true)
    (h : op (s.emit .hold) = (s.emit .hold).setCtl c) :
    s.controlWrite (fun t => t.whenUnlocked op) = s.after c [.emit .hold, .emit .done] :=
  controlWrite_unlocked s op c [] hactive (h.trans (State.setCtl_eq_after _ _))

/-- Settles O19: R153 to R156 inside the control-port write. -/
theorem selectFixedRegister : Obligations.SelectFixedRegister := fun _ hactive =>
  ⟨congrArg Host.Outcome.next (controlWrite_setCtl hactive rfl), congrArg Host.Outcome.next (controlWrite_setCtl hactive rfl),
   congrArg Host.Outcome.next (controlWrite_setCtl hactive rfl), congrArg Host.Outcome.next (controlWrite_setCtl hactive rfl)⟩

/-- Settles O20: R157 and R159 store the index and nothing else. -/
theorem selectBaseAndTuning : Obligations.SelectBaseAndTuning := fun _ _ hactive =>
  ⟨congrArg Host.Outcome.next (controlWrite_setCtl hactive rfl),
   fun _ => congrArg Host.Outcome.next (controlWrite_setCtl hactive rfl)⟩

/-- R158 outside update mode. -/
theorem selectFirmware_enters {s : State} (h : s.ctl.firmwareUpdateActive = false) :
    selectFirmware s =
      s.after { s.ctl with selectedRegister := regFirmware, firmwareUpdateActive := true } [.updaterEnter] := by
  rw [selectFirmware, if_neg (by rw [h]; decide), State.setCtl_eq_after, State.push_eq_after, State.after_after,
    State.after_ctl, List.nil_append]

/-- R158 in update mode. -/
theorem selectFirmware_again {s : State} (h : s.ctl.firmwareUpdateActive = true) :
    selectFirmware s = s.setCtl { s.ctl with selectedRegister := regFirmware } := by
  rw [selectFirmware, if_pos h, storeIndex]

/-- Settles O21: the two cases of R158. -/
theorem selectFirmwareEntersOnce : Obligations.SelectFirmwareEntersOnce := fun s hactive =>
  ⟨fun h => congrArg Host.Outcome.next (controlWrite_unlocked s _ _ _ hactive (selectFirmware_enters (s := s.emit .hold) h)),
   fun h => congrArg Host.Outcome.next (controlWrite_setCtl hactive (selectFirmware_again (s := s.emit .hold) h))⟩

/-- Settles O22: R160 stores the index and clears the flag in one update. -/
theorem selectUnrecognizedLocks : Obligations.SelectUnrecognizedLocks := fun _ _ hactive _ _ =>
  congrArg Host.Outcome.next (controlWrite_setCtl hactive rfl)

/-! ## The class of the selects, in one formula -/

/-- The Control State after an unlocked select of any index (R152 to R160). -/
def ControlState.selected (c : ControlState) (cfg : Config) (v : Byte) : ControlState :=
  { c with
    selectedRegister := v
    controlActive := cfg.recognized v
    stringCursor := if v = regString then 0 else c.stringCursor
    firmwareUpdateActive := c.firmwareUpdateActive || v == regFirmware }

/-- The calls of an unlocked select: the updater is signalled on entry to update mode (R158). -/
def ControlState.selectCalls (c : ControlState) (v : Byte) : List Effect :=
  if v = regFirmware ∧ c.firmwareUpdateActive = false then [.updaterEnter] else []

theorem selectCalls_of_active {c : ControlState} {v : Byte} (h : v = regFirmware → c.firmwareUpdateActive = true) :
    c.selectCalls v = [] :=
  if_neg fun ⟨hv, hf⟩ => by simp [h hv] at hf

/-- The table of the selects as one Control State and one list of calls. -/
theorem select_eq_selected {s : State} (v : Byte) (hactive : s.ctl.controlActive = true) :
    select v s = s.after (s.ctl.selected s.cfg v) (s.ctl.selectCalls v) := by
  rcases select_cases v s with ⟨hrec, hstr, hfw, h⟩ | ⟨rfl, h⟩ | ⟨rfl, hout, h⟩ | ⟨hrec, hstr, hfw, h⟩ <;> rw [h]
  · have hflag : (s.ctl.firmwareUpdateActive || v == regFirmware) = s.ctl.firmwareUpdateActive := by
      by_cases hv : v = regFirmware
      · rw [hfw hv, Bool.true_or]
      · rw [beq_false_of_ne hv, Bool.or_false]
    rw [selectCalls_of_active hfw, ControlState.selected, hrec, if_neg hstr, hflag, ← hactive]
  · have hrec : s.cfg.recognized regString = true := (s.cfg.recognized_iff _).2 (by simp)
    rw [selectCalls_of_active (fun e => absurd e (by decide)), ControlState.selected, hrec, if_pos rfl,
      beq_false_of_ne (by decide), Bool.or_false, ← hactive]
  · have hrec : s.cfg.recognized regFirmware = true := (s.cfg.recognized_iff _).2 (by simp)
    rw [ControlState.selectCalls, if_pos ⟨rfl, hout⟩, ControlState.selected, hrec, if_neg (by decide), beq_self_eq_true,
      Bool.or_true, ← hactive]
  · rw [selectCalls_of_active (fun e => absurd e hfw), ControlState.selected, hrec, if_neg hstr, beq_false_of_ne hfw,
      Bool.or_false]

/-- An unlocked `IOW_SELECT` (R123). -/
theorem exec_iowSelect_unlocked {s : State} (v : Byte) (hactive : s.ctl.controlActive = true) :
    exec (.iowSelect v) s =
      .next (s.after (s.ctl.selected s.cfg v) (.emit .hold :: (s.ctl.selectCalls v ++ [.emit .done]))) :=
  congrArg Host.Outcome.next
    (controlWrite_unlocked s _ _ _ hactive (select_eq_selected (s := s.emit .hold) v hactive))

/-- A locked `IOW_SELECT` (R123). -/
theorem exec_iowSelect_locked {s : State} (v : Byte) (hlocked : s.ctl.controlActive = false) :
    exec (.iowSelect v) s = .next (s.after s.ctl [.emit .hold, .emit .done]) :=
  lockedSelectIgnored s v hlocked _ (List.mem_cons_self ..)

/-- Settles O23: the formula of the selects with its calls between the two responses. -/
theorem unlockedSelectEffect : Obligations.UnlockedSelectEffect := by
  intro s v hactive
  rw [exec_iowSelect_unlocked v hactive, ControlState.selectCalls]
  split <;> rfl

/-! ## A second select -/

/-- Selecting an index again finds the Control State already as the select leaves it. -/
theorem selected_selected (c : ControlState) (cfg : Config) (v : Byte) :
    (c.selected cfg v).selected cfg v = c.selected cfg v := by
  simp only [ControlState.selected, Bool.or_assoc, Bool.or_self]
  split <;> rfl

/-- After a select of 0xFF the block is in update mode, so a second one enters nothing. -/
theorem selectCalls_selected (c : ControlState) (cfg : Config) (v : Byte) : (c.selected cfg v).selectCalls v = [] :=
  selectCalls_of_active fun hv => by simp [ControlState.selected, hv]

/-- Settles O51: a locked select leaves a locked state; an unlocked one leaves an unlocked state that it would leave again, or has
locked the block. -/
theorem selectIsIdempotent : Obligations.SelectIsIdempotent := by
  intro s t v h
  cases hactive : s.ctl.controlActive with
  | false =>
    rw [exec_iowSelect_locked v hactive] at h
    cases h
    exact exec_iowSelect_locked v hactive
  | true =>
    rw [exec_iowSelect_unlocked v hactive] at h
    cases h
    cases hrec : s.cfg.recognized v with
    | false => exact exec_iowSelect_locked v hrec
    | true =>
      refine (exec_iowSelect_unlocked v hrec).trans ?_
      rw [State.after_ctl, State.after_cfg, selected_selected, selectCalls_selected]
      rfl

end Sys2Proof.Machine
end

section
/-!
PROOFS. The data-port writes (spec/40_bus_dispatch.md section 2, spec/41_control_protocol.md section 4).
-/

namespace Sys2Proof.Machine

/-- A row and its class, which do the same, have the same next state. -/
theorem exec_row_and_class {row cls : Instr} {s t : State} (hrow : exec row s = .next t) (heq : exec row s = exec cls s) :
    ∀ i ∈ [row, cls], exec i s = .next t := by
  simp only [List.forall_mem_cons]
  exact ⟨hrow, heq.symm.trans hrow, List.forall_mem_nil _⟩

/-- A state as itself with no effects. -/
theorem State.eq_after_nil (s : State) : s = s.after s.ctl [] := State.setCtl_eq_after s s.ctl

/-! ## Dropped writes (R162, D26) -/

/-- The responses of a data-port write that changes nothing, in both timing classes (R105). -/
def DroppedIn (s : State) (i : Instr) : Prop :=
  (s.ctl.selectedRegister ≠ 0xFF → exec i s = .next (s.after s.ctl [.emit .done])) ∧
  (s.ctl.selectedRegister = 0xFF → exec i s = .next (s.after s.ctl [.emit .hold, .emit .done]))

/-- A locked data-port write drops its operation, whichever it is. -/
theorem droppedIn_of_locked {s : State} {i : Instr} {op : State → State} (hlocked : s.ctl.controlActive = false)
    (h : exec i s = .next (s.dataWrite op)) : DroppedIn s i :=
  ⟨fun hs => h.trans (congrArg Host.Outcome.next (dataWrite_locked_fast s op hlocked hs)),
   fun hs => h.trans (congrArg Host.Outcome.next (dataWrite_locked_slow s op hlocked hs))⟩

/-- An unlocked data-port write whose operation does nothing. -/
theorem droppedIn_of_ignored {s : State} {i : Instr} {v : Byte} (hactive : s.ctl.controlActive = true)
    (h : exec i s = .next (s.dataWrite (ignoreWrite v))) : DroppedIn s i :=
  ⟨fun hs => h.trans (congrArg Host.Outcome.next (dataWrite_fast s (ignoreWrite v) _ [] hactive hs (State.eq_after_nil _))),
   fun hs => h.trans (congrArg Host.Outcome.next (dataWrite_slow s (ignoreWrite v) _ [] hactive hs (State.eq_after_nil _)))⟩

/-- Every data-register write, class or row, is one operation inside the data-port write. -/
theorem exec_write_eq_dataWrite (s : State) (v : Byte) :
    ∀ i ∈ [Instr.iowDataLo v, .iowDataHi v, .wrloBase v, .wrloIgnored v, .wrhiBase v, .wrhiFw v, .wrhiTuning v, .wrhiIgnored v,
           .wrhiUnrecognized v], ∃ op, exec i s = .next (s.dataWrite op) := by
  simp only [List.forall_mem_cons]
  exact ⟨⟨_, rfl⟩, ⟨_, rfl⟩, ⟨_, rfl⟩, ⟨_, rfl⟩, ⟨_, rfl⟩, ⟨_, rfl⟩, ⟨_, rfl⟩, ⟨_, rfl⟩, ⟨_, rfl⟩, List.forall_mem_nil _⟩

/-- Settles O24: the gate drops the operation of every data-register write and keeps its responses. -/
theorem lockedDataWriteDropped : Obligations.LockedDataWriteDropped := by
  intro s v hlocked i hi
  obtain ⟨op, hop⟩ := exec_write_eq_dataWrite s v i hi
  exact droppedIn_of_locked hlocked hop

/-! ## Low writes -/

/-- R163 as a fast write. -/
theorem exec_wrloBase {s : State} (v : Byte) (hactive : s.ctl.controlActive = true)
    (hsel : s.ctl.selectedRegister ≠ regFirmware) :
    exec (.wrloBase v) s = .next (s.after { s.ctl with basePortStagingLow := v } [.emit .done]) :=
  congrArg Host.Outcome.next (dataWrite_fast s (latchStaging v) _ [] hactive hsel (State.setCtl_eq_after _ _))

/-- The class whose register selects a given row. -/
theorem exec_row_eq_iowDataLo {s : State} {v : Byte} {row : Instr} (h : writeLowInstr s.ctl.selectedRegister v = row) :
    exec row s = exec (.iowDataLo v) s := by
  rw [← h, exec_writeLowInstr]

theorem exec_row_eq_iowDataHi {s : State} {v : Byte} {row : Instr} (h : writeHighInstr s.cfg s.ctl.selectedRegister v = row) :
    exec row s = exec (.iowDataHi v) s := by
  rw [← h, exec_writeHighInstr]

/-- Settles O25: the row latches the byte after its fast response, and register 0x04 gives the class that row. -/
theorem lowWriteLatchesStaging : Obligations.LowWriteLatchesStaging := by
  intro s v hactive hsel
  refine exec_row_and_class (exec_wrloBase v hactive ?_) (exec_row_eq_iowDataLo ?_)
  · rw [hsel]; decide
  · rw [hsel]; rfl

/-- Settles O26: R164 does nothing in either timing class. -/
theorem lowWriteOfOtherRegisterIgnored : Obligations.LowWriteOfOtherRegisterIgnored := by
  intro s v hactive hsel
  have hrow : exec (.wrloIgnored v) s = .next (s.dataWrite (ignoreWrite v)) := rfl
  have hclass := exec_row_eq_iowDataLo (writeLowInstr_ignored v hsel)
  simp only [List.forall_mem_cons]
  exact ⟨droppedIn_of_ignored hactive hrow, droppedIn_of_ignored hactive (hclass.symm.trans hrow), List.forall_mem_nil _⟩

/-! ## High writes -/

/-- Settles O28: the value of `p` makes it the word R100 assembles. -/
theorem highWriteCommitsBase : Obligations.HighWriteCommitsBase := by
  intro s v p hactive hsel hp
  obtain rfl : p = assembleBase v s.ctl.basePortStagingLow := BitVec.eq_of_toNat_eq (hp.trans (assembleBase_toNat v _).symm)
  exact exec_highWrite_of_regBase s v hactive hsel

/-- Settles O29: R166 between the responses of a slow write. -/
theorem highWriteStreamsFirmware : Obligations.HighWriteStreamsFirmware := by
  intro s v hactive hsel
  refine exec_row_and_class (congrArg Host.Outcome.next ?_) (exec_row_eq_iowDataHi (by rw [hsel]; rfl))
  exact dataWrite_slow s (streamByte v) s.ctl [.updaterByte v] hactive hsel (State.push_eq_after _ _)

/-- Settles O30: R167 after a fast response, since a tuning register is not 0xFF. -/
theorem highWriteTunesBackend : Obligations.HighWriteTunesBackend := by
  intro s v hcfg hactive htuning
  obtain ⟨-, -, -, -, -, -, hfast⟩ := s.cfg.tuning_not_fixed hcfg _ htuning
  refine exec_row_and_class (congrArg Host.Outcome.next ?_) (exec_row_eq_iowDataHi (writeHighInstr_tuning v hcfg htuning))
  exact dataWrite_fast s (tuneBackend v) s.ctl [.backendTune s.ctl.selectedRegister v] hactive hfast (State.push_eq_after _ _)

/-- Settles O31: R168 and R169 do nothing after a fast response. -/
theorem highWriteIgnored : Obligations.HighWriteIgnored := by
  refine fun s v hactive => ⟨fun hsel => ?_, fun hsel => ?_⟩
  · have hfast : s.ctl.selectedRegister ≠ 0xFF := by
      intro heq
      rw [heq] at hsel
      exact absurd hsel (by decide)
    exact exec_row_and_class ((droppedIn_of_ignored (v := v) hactive rfl).1 hfast)
      (exec_row_eq_iowDataHi (writeHighInstr_ignored s.cfg v hsel))
  · obtain ⟨-, -, -, -, -, hfast, -⟩ := Config.not_recognized hsel
    exact exec_row_and_class ((droppedIn_of_ignored (v := v) hactive rfl).1 hfast)
      (exec_row_eq_iowDataHi (writeHighInstr_unrecognized v hsel))

end Sys2Proof.Machine
end

section
/-!
PROOFS. The reads (spec/40_bus_dispatch.md section 3, spec/41_control_protocol.md section 5).
-/

namespace Sys2Proof

/-- The high half of a word in the terms of R66. -/
theorem highHalf_of_toNat {p : Word16} {h l : Byte} (hp : p.toNat = 256 * h.toNat + l.toNat) : highHalf p = h := by
  refine BitVec.eq_of_toNat_eq ?_
  rw [highHalf, BitVec.extractLsb'_toNat, Nat.shiftRight_eq_div_pow]
  omega

theorem lowHalf_of_toNat {p : Word16} {h l : Byte} (hp : p.toNat = 256 * h.toNat + l.toNat) : lowHalf p = l := by
  refine BitVec.eq_of_toNat_eq ?_
  rw [lowHalf, BitVec.extractLsb'_toNat, Nat.shiftRight_zero]
  omega

theorem Config.idByte_of_lt {cfg : Config} {n : Nat} (h : n < cfg.idString.length) : cfg.idByte n = cfg.idString[n] :=
  List.getD_eq_getElem _ _ h

/-- R17: the terminator stands at the end of the identity string. -/
theorem Config.idByte_length (cfg : Config) : cfg.idByte cfg.idString.length = 0x00 :=
  List.getD_eq_default _ _ (Nat.le_refl _)

namespace Machine

/-! ## The templates of the reads -/

/-- A mapped read of a byte that is there, with no call and no change. -/
theorem mappedRead_byte {s : State} {op : State → Byte × State} {b : Byte} (h : op (s.emit .hold) = (b, s.emit .hold)) :
    s.mappedRead op = s.after s.ctl [.emit .hold, .emit (.doneData b)] :=
  mappedRead_pure s op b s.ctl (h.trans (congrArg (Prod.mk b) (State.eq_after_nil (s.emit .hold))))

theorem exec_row_eq_iorDataHi {s : State} {row : Instr} (h : readHighInstr s.cfg s.ctl.selectedRegister = row) :
    exec row s = exec .iorDataHi s := by
  rw [← h, exec_readHighInstr]

theorem exec_row_eq_iorDataLo {s : State} {row : Instr} (h : readLowInstr s.ctl.selectedRegister = row) :
    exec row s = exec .iorDataLo s := by
  rw [← h, exec_readLowInstr]

/-! ## Reads without a call -/

/-- Settles O36: R130 reads the index back. -/
theorem controlPortReadsIndex : Obligations.ControlPortReadsIndex := fun _ =>
  congrArg Host.Outcome.next (mappedRead_byte rfl)

/-- Settles O32: R170, R171 and R173 answer a constant, at the register that selects each. -/
theorem highReadConstants : Obligations.HighReadConstants := fun s =>
  ⟨fun hsel => exec_row_and_class (congrArg Host.Outcome.next (mappedRead_byte rfl))
      (exec_row_eq_iorDataHi (by rw [hsel]; rfl)),
   fun hsel => exec_row_and_class (congrArg Host.Outcome.next (mappedRead_byte rfl))
      (exec_row_eq_iorDataHi (by rw [hsel]; rfl)),
   fun hsel => exec_row_and_class (congrArg Host.Outcome.next (mappedRead_byte rfl))
      (exec_row_eq_iorDataHi (by rw [hsel]; rfl))⟩

/-- Settles O34: the halves of the base port are its quotient and remainder by 256. -/
theorem readBaseHalves : Obligations.ReadBaseHalves := by
  intro s h l hsel hbase
  rw [← highHalf_of_toNat hbase, ← lowHalf_of_toNat hbase]
  exact ⟨exec_row_and_class (congrArg Host.Outcome.next (mappedRead_byte rfl)) (exec_row_eq_iorDataHi (by rw [hsel]; rfl)),
    exec_row_and_class (congrArg Host.Outcome.next (mappedRead_byte rfl)) (exec_row_eq_iorDataLo (by rw [hsel]; rfl))⟩

/-! ## The identity string (R172) -/

/-- The Control State after a read of register 0x02 (R172). -/
def ControlState.cursorMoved (c : ControlState) (cfg : Config) : ControlState :=
  { c with stringCursor := if c.stringCursor = cfg.idLength then 0 else c.stringCursor + 1 }

theorem cursorMoved_of_lt {c : ControlState} {cfg : Config} (h : c.stringCursor < cfg.idString.length) :
    c.cursorMoved cfg = { c with stringCursor := c.stringCursor + 1 } := by
  rw [ControlState.cursorMoved, Config.idLength, if_neg (Nat.ne_of_lt h)]

theorem cursorMoved_of_end {c : ControlState} {cfg : Config} (h : c.stringCursor = cfg.idString.length) :
    c.cursorMoved cfg = { c with stringCursor := 0 } := by
  rw [ControlState.cursorMoved, Config.idLength, if_pos h]

/-- R172 inside the data-port-high read. -/
theorem exec_rdhiString (s : State) :
    exec .rdhiString s = .next (s.after (s.ctl.cursorMoved s.cfg)
      [.emit .hold, .emit (.doneData (s.cfg.idByte s.ctl.stringCursor))]) :=
  congrArg Host.Outcome.next (mappedRead_pure s readString _ _ (congrArg (Prod.mk _) (State.setCtl_eq_after _ _)))

/-- Register 0x02 gives the class the row of the identity string. -/
theorem exec_iorDataHi_string {s : State} (hsel : s.ctl.selectedRegister = regString) :
    exec .rdhiString s = exec .iorDataHi s :=
  exec_row_eq_iorDataHi (by rw [hsel]; rfl)

/-- Settles O33: the byte under the cursor, and where the cursor goes from it. -/
theorem highReadStreamsString : Obligations.HighReadStreamsString := by
  intro s hsel i hi
  rw [exec_row_and_class (exec_rdhiString s) (exec_iorDataHi_string hsel) i hi]
  refine ⟨fun hlt => ?_, fun hend => ?_⟩
  · rw [cursorMoved_of_lt hlt, Config.idByte_of_lt hlt]
  · rw [cursorMoved_of_end hend, hend, Config.idByte_length]

/-! ## Reads answered by a draw -/

/-- A mapped read that is one call. -/
theorem mappedRead_call {s : State} (call : Byte → Effect) {op : State → Byte × State}
    (h : op (s.emit .hold) = (s.emit .hold).ask call) :
    Host.Outcome.next (φ := Fault) (ρ := Refusal) (s.mappedRead op) = .next (s.afterDraw s.ctl
      [.emit .hold, call (Config.freeByte s.draws), .emit (.doneData (Config.freeByte s.draws))]) :=
  congrArg Host.Outcome.next (mappedRead_ask s op call h)

/-- Settles O35: R175, R176, R177 and R179 are one call each, in the row and in the class that its register gives that row. -/
theorem readsAnsweredByDraw : Obligations.ReadsAnsweredByDraw := fun s =>
  ⟨fun hsel => exec_row_and_class (mappedRead_call .updaterStatus rfl) (exec_row_eq_iorDataHi (by rw [hsel]; rfl)),
   fun hcfg htuning => exec_row_and_class (mappedRead_call (.backendTuneRead s.ctl.selectedRegister) rfl)
      (exec_row_eq_iorDataHi (readHighInstr_tuning hcfg htuning)),
   fun hunrec => exec_row_and_class (mappedRead_call .unspecified rfl)
      (exec_row_eq_iorDataHi (readHighInstr_unrecognized hunrec)),
   fun hsel => exec_row_and_class (mappedRead_call .unspecified rfl) (exec_row_eq_iorDataLo (readLowInstr_other hsel))⟩

/-- Settles O38: R133 is one call, and R134 a byte of the configuration. -/
theorem backendReadEffects : Obligations.BackendReadEffects := fun _ off _ =>
  ⟨mappedRead_call (.backendRead off) rfl, congrArg Host.Outcome.next (mappedRead_byte rfl)⟩

end Machine
end Sys2Proof
end

section
/-!
PROOFS. The response contract of a dispatch call (spec/40_bus_dispatch.md section 1, R105, R120).
-/

namespace Sys2Proof.Machine

/-! ## Operations push no response (R150) -/

/-- From `s` to `t` the trace grew by calls alone. -/
def CallsOnly (s t : State) : Prop :=
  ∃ calls : List Effect, t.trace = s.trace ++ calls ∧ ∀ e ∈ calls, e.isResponse = false

theorem callsOnly_of_trace_eq {s t : State} (h : t.trace = s.trace) : CallsOnly s t :=
  ⟨[], by rw [h, List.append_nil], List.forall_mem_nil _⟩

theorem callsOnly_setCtl (s : State) (c : ControlState) : CallsOnly s (s.setCtl c) := callsOnly_of_trace_eq rfl

theorem callsOnly_of_one {s t : State} {e : Effect} (ht : t.trace = s.trace ++ [e]) (he : e.isResponse = false) :
    CallsOnly s t :=
  ⟨[e], ht, List.forall_mem_singleton.2 he⟩

theorem callsOnly_ask (s : State) {call : Byte → Effect} (h : ∀ b, (call b).isResponse = false) :
    CallsOnly s (s.ask call).2 :=
  callsOnly_of_one rfl (h _)

theorem callsOnly_commitBase (v : Byte) (s : State) : CallsOnly s (commitBase v s) := callsOnly_of_one rfl rfl

theorem callsOnly_selectFirmware (s : State) : CallsOnly s (selectFirmware s) := by
  unfold selectFirmware
  split
  · exact callsOnly_setCtl s _
  · exact callsOnly_of_one rfl rfl

theorem callsOnly_select (v : Byte) (s : State) : CallsOnly s (select v s) := by
  rcases select_cases v s with ⟨-, -, -, h⟩ | ⟨-, h⟩ | ⟨-, -, h⟩ | ⟨-, -, -, h⟩ <;> rw [h]
  case inr.inr.inl => exact callsOnly_of_one rfl rfl
  all_goals exact callsOnly_of_trace_eq (List.append_nil _)

theorem callsOnly_writeLow (v : Byte) (s : State) : CallsOnly s (writeLow v s) := by
  rcases writeLow_cases v s with ⟨-, h⟩ | ⟨-, h⟩ <;> rw [h]
  · exact callsOnly_of_trace_eq (List.append_nil _)
  · exact callsOnly_of_trace_eq rfl

theorem callsOnly_writeHigh (v : Byte) (s : State) : CallsOnly s (writeHigh v s) := by
  rcases writeHigh_cases v s with ⟨-, h⟩ | ⟨-, h⟩ | ⟨-, -, h⟩ | ⟨-, h⟩ <;> rw [h]
  case inr.inr.inr => exact callsOnly_of_trace_eq rfl
  all_goals exact callsOnly_of_one rfl rfl

theorem callsOnly_readHigh (s : State) : CallsOnly s (readHigh s).2 := by
  rcases readHigh_cases s with ⟨b, -, h⟩ | ⟨-, h⟩ | ⟨call, -, hcall, -, h⟩ <;> rw [h]
  · exact callsOnly_of_trace_eq rfl
  · exact callsOnly_setCtl s _
  · exact callsOnly_ask s hcall

theorem callsOnly_readLow (s : State) : CallsOnly s (readLow s).2 := by
  rcases readLow_cases s with ⟨-, h⟩ | ⟨-, h⟩ <;> rw [h]
  · exact callsOnly_of_trace_eq rfl
  · exact callsOnly_ask s fun _ => rfl

theorem callsOnly_whenUnlocked (s : State) {op : State → State} (h : ∀ u, CallsOnly u (op u)) :
    CallsOnly s (s.whenUnlocked op) := by
  unfold State.whenUnlocked
  split
  · exact h s
  · exact callsOnly_of_trace_eq rfl

/-! ## The templates add the responses (R105) -/

/-- From `s` to `t` the trace grew by effects that keep the response contract. -/
def Answers (s t : State) : Prop := ∃ effs : List Effect, t.trace = s.trace ++ effs ∧ OneTerminal effs

/-- A fast path: the response and then calls. -/
theorem answers_fast {s t : State} {r : Response} (hr : r.terminal = true) (h : CallsOnly (s.emit r) t) : Answers s t := by
  obtain ⟨calls, htrace, hcalls⟩ := h
  exact ⟨.emit r :: calls, by rw [htrace, State.emit_trace, List.append_assoc, List.singleton_append],
    r, hr, .inl ⟨calls, rfl, hcalls⟩⟩

/-- A slow path: `Hold`, calls, and the response. -/
theorem answers_slow {s u : State} {r : Response} (hr : r.terminal = true) (h : CallsOnly (s.emit .hold) u) :
    Answers s (u.emit r) := by
  obtain ⟨calls, htrace, hcalls⟩ := h
  refine ⟨.emit .hold :: (calls ++ [.emit r]), by simp [htrace], r, hr, .inr ?_⟩
  have hnone : calls.filter Effect.isResponse = [] := List.filter_eq_nil_iff.2 fun e he => by simp [hcalls e he]
  rw [List.filter_cons_of_pos rfl, List.filter_append, hnone]
  rfl

theorem answers_emit (s : State) {r : Response} (hr : r.terminal = true) : Answers s (s.emit r) :=
  answers_fast hr (callsOnly_of_trace_eq rfl)

theorem answers_controlWrite (s : State) {op : State → State} (h : ∀ u, CallsOnly u (op u)) : Answers s (s.controlWrite op) :=
  answers_slow rfl (h _)

theorem answers_dataWrite (s : State) {op : State → State} (h : ∀ u, CallsOnly u (op u)) : Answers s (s.dataWrite op) := by
  unfold State.dataWrite
  split
  · exact answers_slow rfl (callsOnly_whenUnlocked _ h)
  · exact answers_fast rfl (callsOnly_whenUnlocked _ h)

theorem answers_mappedRead (s : State) {op : State → Byte × State} (h : ∀ u, CallsOnly u (op u).2) :
    Answers s (s.mappedRead op) :=
  answers_slow rfl (h _)

/-- Every meaning keeps the contract: each is one template around an operation that pushes no response. -/
theorem exec_answers (i : Instr) (s : State) : ∃ t, exec i s = .next t ∧ Answers s t := by
  cases i
  case iowUnlock => exact ⟨_, rfl, answers_controlWrite s fun u => callsOnly_setCtl u _⟩
  case iowSelect v => exact ⟨_, rfl, answers_controlWrite s fun u => callsOnly_whenUnlocked u (callsOnly_select v)⟩
  case selFw => exact ⟨_, rfl, answers_controlWrite s fun u => callsOnly_whenUnlocked u callsOnly_selectFirmware⟩
  case iowDataLo v => exact ⟨_, rfl, answers_dataWrite s (callsOnly_writeLow v)⟩
  case iowDataHi v => exact ⟨_, rfl, answers_dataWrite s (callsOnly_writeHigh v)⟩
  case wrloBase v => exact ⟨_, rfl, answers_dataWrite s fun u => callsOnly_setCtl u _⟩
  case wrhiBase v => exact ⟨_, rfl, answers_dataWrite s (callsOnly_commitBase v)⟩
  case wrhiFw | wrhiTuning => exact ⟨_, rfl, answers_dataWrite s fun u => callsOnly_of_one rfl rfl⟩
  case wrloIgnored | wrhiIgnored | wrhiUnrecognized =>
    exact ⟨_, rfl, answers_dataWrite s fun u => callsOnly_of_trace_eq rfl⟩
  case iowBackendFast => exact ⟨_, rfl, answers_fast rfl (callsOnly_of_one rfl rfl)⟩
  case iowBackendSlow => exact ⟨_, rfl, answers_slow rfl (callsOnly_of_one rfl rfl)⟩
  case iowUnmapped | iorUnmapped => exact ⟨_, rfl, answers_emit s rfl⟩
  case iorDataLo => exact ⟨_, rfl, answers_mappedRead s callsOnly_readLow⟩
  case iorDataHi => exact ⟨_, rfl, answers_mappedRead s callsOnly_readHigh⟩
  case rdhiString => exact ⟨_, rfl, answers_mappedRead s fun u => callsOnly_setCtl u _⟩
  case iorBackend | rdhiFw | rdhiTuning | rdhiUnrecognized | rdloOther =>
    exact ⟨_, rfl, answers_mappedRead s fun u => callsOnly_of_one rfl rfl⟩
  case iorCtrl | iorBackendSentinel | rdhiMagic | rdhiVersion | rdhiType | rdhiBase | rdloBase =>
    exact ⟨_, rfl, answers_mappedRead s fun u => callsOnly_of_trace_eq rfl⟩
  all_goals exact ⟨_, rfl, answers_controlWrite s fun u => callsOnly_whenUnlocked u fun w => callsOnly_setCtl w _⟩

/-- Settles O41: the templates push the responses and the operations between them push none. -/
theorem exactlyOneTerminalResponse : Obligations.ExactlyOneTerminalResponse := by
  intro i s
  obtain ⟨t, hexec, effs, htrace, hone⟩ := exec_answers i s
  exact ⟨t, effs, hexec, htrace, hone⟩

end Sys2Proof.Machine
end

section
/-!
PROOFS. Reset and the step (spec/00_scope.md section 3, spec/40_bus_dispatch.md sections 2 and 3, spec/60_exceptions.md,
spec/70_reset_and_hazards.md).
-/

namespace Sys2Proof

/-- The parts of R9's check. -/
theorem Config.wf_iff (cfg : Config) :
    cfg.wf = true ↔ (((cfg.portsDistinct = true ∧ cfg.tuningDisjoint = true) ∧ cfg.stringOk = true) ∧ cfg.typeOk = true) ∧
      cfg.regionOk = true := by
  simp only [Config.wf, Bool.and_eq_true]

/-- The type codes above 4 that R9 admits are 0xFF alone. -/
theorem Config.typeOk_bound {cfg : Config} (h : cfg.typeOk = true) : ¬ (0x04 < cfg.backendType ∧ cfg.backendType ≠ 0xFF) := by
  have hcodes : ∀ b ∈ ([0x00, 0x01, 0x02, 0x03, 0x04, 0xFF] : List Byte), ¬ (0x04 < b ∧ b ≠ 0xFF) := by decide
  exact hcodes _ (of_decide_eq_true h)

namespace Machine

/-! ## The step, one equation per case -/

theorem step_refused {s : State} (hcfg : s.cfg.wf = false) : step s = .refused .illFormedConfig := by
  rw [step, if_neg (by rw [hcfg]; decide)]

theorem step_reset {s : State} (hcfg : s.cfg.wf = true) (hreset : s.resetPending = true) :
    step s = .next s.externalReset := by
  rw [step, if_pos hcfg, if_pos hreset]

theorem step_host {s : State} (hcfg : s.cfg.wf = true) (hreset : s.resetPending = false) (hpop : s.popEvent = none) :
    step s = .next s.hostIssue := by
  rw [step, if_pos hcfg, if_neg (by rw [hreset]; decide), hpop]

theorem step_dispatch {s u : State} {tx : Transaction} (hcfg : s.cfg.wf = true) (hreset : s.resetPending = false)
    (hpop : s.popEvent = some (tx, u)) : step s = exec (decode s.cfg s.ctl.basePort tx) u := by
  obtain ⟨hucfg, huctl, -, -, -, -⟩ := popEvent_keeps s tx u hpop
  rw [step, if_pos hcfg, if_neg (by rw [hreset]; decide), hpop]
  change exec (decode u.cfg u.ctl.basePort tx) u = _
  rw [hucfg, huctl]

/-! ## Popping an event -/

theorem popEvent_write {s : State} {w : IowEvent} {ws : List IowEvent} (hw : s.iowQueue = w :: ws) (hr : s.iorQueue = []) :
    s.popEvent = some (.iow w.port w.data, { s with iowQueue := ws }) := by
  simp only [State.popEvent, hw, hr]

theorem popEvent_read {s : State} {r : Port} {rs : List Port} (hw : s.iowQueue = []) (hr : s.iorQueue = r :: rs) :
    s.popEvent = some (.ior r, { s with iorQueue := rs }) := by
  simp only [State.popEvent, hw, hr]

/-- D17: the direction is a free value. -/
theorem popEvent_either {s : State} {w : IowEvent} {ws : List IowEvent} {r : Port} {rs : List Port}
    (hw : s.iowQueue = w :: ws) (hr : s.iorQueue = r :: rs) :
    s.popEvent = some (.iow w.port w.data, { s.advanceDraw with iowQueue := ws }) ∨
    s.popEvent = some (.ior r, { s.advanceDraw with iorQueue := rs }) := by
  simp only [State.popEvent, hw, hr]
  split
  · exact .inl rfl
  · exact .inr rfl

/-- Settles O12: with one queue holding events its oldest one is popped. -/
theorem stepRunsDecodedEvent : Obligations.StepRunsDecodedEvent :=
  ⟨fun _ _ _ hcfg hreset hw hr => step_dispatch hcfg hreset (popEvent_write hw hr),
   fun _ _ _ hcfg hreset hw hr => step_dispatch hcfg hreset (popEvent_read hw hr)⟩

/-- Settles O13: either choice of the free value pops the oldest event of its queue. -/
theorem stepServesEitherDirection : Obligations.StepServesEitherDirection :=
  fun _ _ _ _ _ hcfg hreset hw hr => (popEvent_either hw hr).imp (step_dispatch hcfg hreset) (step_dispatch hcfg hreset)

/-! ## Reset -/

/-- Settles O10: the fields of `State.resetWith` are those values. -/
theorem resetValues : Obligations.ResetValues := fun _ => ⟨rfl, rfl, rfl, rfl, rfl, rfl, rfl, rfl, rfl⟩

/-- Settles O11: R230's reset, which the step serves first. -/
theorem externalResetStep : Obligations.ExternalResetStep := fun _ hcfg hreset => step_reset hcfg hreset

theorem protocolInv_of_ctl_reset {s : State} (h : s.ctl = ControlState.resetWith s.cfg) : s.ProtocolInv := by
  rw [State.ProtocolInv, h]
  exact ⟨Nat.zero_le _, (by decide : (0x00 : Byte) ≠ unlockByte), fun e => absurd e (by decide : (0x00 : Byte) ≠ regFirmware),
    fun _ => .inl rfl⟩

/-- The default base port is the first committed value. -/
theorem baseCommitted_of_ctl_reset {s : State} (h : s.ctl = ControlState.resetWith s.cfg) : s.BaseCommitted := by
  rw [State.BaseCommitted, h]
  exact List.mem_cons_self ..

/-- Settles O42: the invariants hold of the Control State that a reset gives. -/
theorem invariantsHoldAtReset : Obligations.InvariantsHoldAtReset := fun _ =>
  ⟨protocolInv_of_ctl_reset rfl, baseCommitted_of_ctl_reset rfl⟩

/-! ## No event, no meaning, no fault -/

/-- Settles O14: with both lines low there is no event to pop, and a host without a program issues nothing. -/
theorem idleStepChangesNothing : Obligations.IdleStepChangesNothing := by
  intro s
  refine ⟨by simp [State.writeLinePending], by simp [State.readLinePending], fun hcfg hreset hwrite hread hprog => ?_⟩
  have hpop : s.popEvent = none := (hostWaiting_false s).1 (by rw [State.hostWaiting, hwrite, hread]; rfl)
  rw [step_host hcfg hreset hpop, State.hostIssue, hprog]

/-- Settles O15: each defect contradicts one part of the check. -/
theorem illFormedConfigRefused : Obligations.IllFormedConfigRefused := by
  intro s hdefect
  refine step_refused (Bool.eq_false_iff.2 fun hcfg => ?_)
  obtain ⟨hlc, hhc, hhl⟩ := s.cfg.ports_ne hcfg
  obtain ⟨⟨⟨-, hstring⟩, htype⟩, -⟩ := (Config.wf_iff s.cfg).1 hcfg
  rcases hdefect with h | h | h | ⟨r, hr, hfixed⟩ | hzero | hcode
  · exact hlc h
  · exact hhc h
  · exact hhl h
  · have hne := s.cfg.tuning_not_fixed hcfg r hr
    tauto
  · exact of_decide_eq_false ((Bool.not_eq_true' _).mp hstring) hzero
  · exact Config.typeOk_bound htype hcode

/-- Settles O16: a reset and the host's turn answer a next state, and every meaning does. -/
theorem everyStepCompletes : Obligations.EveryStepCompletes := by
  intro s hcfg
  cases hreset : s.resetPending with
  | true => exact ⟨_, step_reset hcfg hreset⟩
  | false =>
    cases hpop : s.popEvent with
    | none => exact ⟨_, step_host hcfg hreset hpop⟩
    | some e =>
      obtain ⟨t, hexec, -⟩ := exec_leaves (decode s.cfg s.ctl.basePort e.1) e.2
      exact ⟨t, (step_dispatch hcfg hreset hpop).trans hexec⟩

/-! ## Unmapped ports -/

/-- Settles O57: neither direction of the decode finds an offset, and the unmapped classes push `Done` alone. -/
theorem unmappedPortIsNoOp : Obligations.UnmappedPortIsNoOp := by
  intro s p hcfg hreset hctrl hregion
  have hoff := Config.offset?_none_of_entries hregion
  refine ⟨fun v ws hw hr => ?_, fun rs hw hr => ?_⟩
  · rw [step_dispatch hcfg hreset (popEvent_write hw hr), decode, decodeIow_unmapped v hctrl hoff, exec_iowUnmapped]
    rfl
  · rw [step_dispatch hcfg hreset (popEvent_read hw hr), decode, decodeIor_unmapped hctrl hoff, exec_iorUnmapped]
    rfl

/-! ## A backend's queue (R205) -/

theorem enqueueBounded_below {policy : OverflowPolicy} {cap : Nat} {q : List (Nat × Byte)} {e : Nat × Byte}
    (h : q.length < cap) : enqueueBounded policy cap q e = q ++ [e] := if_pos h

theorem enqueueBounded_dropNewest {cap : Nat} {q : List (Nat × Byte)} {e : Nat × Byte} (h : q.length = cap) :
    enqueueBounded .dropNewest cap q e = q := if_neg (by omega)

theorem enqueueBounded_overwriteOldest {cap : Nat} {q : List (Nat × Byte)} {e : Nat × Byte} (h : q.length = cap) :
    enqueueBounded .overwriteOldest cap q e = (q ++ [e]).tail := (if_neg (by omega)).trans List.drop_one

theorem enqueueBounded_length_le {policy : OverflowPolicy} {cap : Nat} {q : List (Nat × Byte)} {e : Nat × Byte}
    (h : q.length ≤ cap) : (enqueueBounded policy cap q e).length ≤ cap := by
  rcases Nat.lt_or_eq_of_le h with hlt | heq
  · rw [enqueueBounded_below hlt, List.length_append, List.length_singleton]
    exact hlt
  · cases policy with
    | dropNewest => rwa [enqueueBounded_dropNewest heq]
    | overwriteOldest =>
      rw [enqueueBounded_overwriteOldest heq, List.length_tail, List.length_append, List.length_singleton]
      exact h

/-- Settles O58: a queue below its capacity grows by one, a full one drops one entry. -/
theorem backendQueueStaysBounded : Obligations.BackendQueueStaysBounded := by
  intro cfg cap q off v hle
  refine ⟨enqueueBounded_length_le hle, enqueueBounded_below, fun heq hpolicy => ?_, fun heq hpos hpolicy => ?_⟩
  · rw [backendQueueAfter, hpolicy, enqueueBounded_dropNewest heq]
  · have hne : q ≠ [] := List.ne_nil_of_length_pos (by omega)
    rw [backendQueueAfter, hpolicy, enqueueBounded_overwriteOldest heq, List.tail_append_of_ne_nil hne]

end Machine
end Sys2Proof
end

section
/-!
PROOFS. What one dispatch call can do to the Control State, said once (spec/10_state.md section 2), and what every step therefore
keeps (spec/10_state.md section 7, spec/20_memory.md section 5, checks N-2 and N-4 of spec/95_test_vectors.md).
-/

namespace Sys2Proof.Machine

/-! ## The writers of the Control State -/

/-- `CtlWrite cfg c tx c' bases`: the transaction `tx`, dispatched in the Control State `c`, may leave `c'` and commit the base
ports `bases`. One constructor per rule that writes a field (R151 to R160, R163, R165, R172); every other call keeps `c`. -/
inductive CtlWrite (cfg : Config) (c : ControlState) : Transaction → ControlState → List Word16 → Prop
  | keep (tx : Transaction) : CtlWrite cfg c tx c []
  | unlock : CtlWrite cfg c (.iow cfg.controlPort unlockByte) { c with controlActive := true } []
  | select (v : Byte) (hv : v ≠ unlockByte) (hactive : c.controlActive = true) :
      CtlWrite cfg c (.iow cfg.controlPort v) (c.selected cfg v) []
  | latch (v : Byte) (hactive : c.controlActive = true) (hsel : c.selectedRegister = regBase) :
      CtlWrite cfg c (.iow cfg.dataLowPort v) { c with basePortStagingLow := v } []
  | commit (v : Byte) (hactive : c.controlActive = true) (hsel : c.selectedRegister = regBase) :
      CtlWrite cfg c (.iow cfg.dataHighPort v) { c with basePort := assembleBase v c.basePortStagingLow }
        [assembleBase v c.basePortStagingLow]
  | string (hsel : c.selectedRegister = regString) : CtlWrite cfg c (.ior cfg.dataHighPort) (c.cursorMoved cfg) []

/-- The call that leads from `s` to `t` appends effects that commit the base ports `bases`. -/
def Commits (s t : State) (bases : List Word16) : Prop :=
  ∃ effs : List Effect, t.trace = s.trace ++ effs ∧ effs.filterMap Effect.rebased? = bases

/-- What the call of a transaction does to the Control State and to the committed base ports. -/
def Writes (s : State) (tx : Transaction) (t : State) : Prop :=
  ∃ bases, CtlWrite s.cfg s.ctl tx t.ctl bases ∧ Commits s t bases

theorem writes_after {s : State} {tx : Transaction} {c : ControlState} {effs : List Effect}
    (h : CtlWrite s.cfg s.ctl tx c (effs.filterMap Effect.rebased?)) : Writes s tx (s.after c effs) :=
  ⟨_, h, effs, rfl, rfl⟩

theorem writes_afterDraw {s : State} (tx : Transaction) {effs : List Effect} (h : effs.filterMap Effect.rebased? = []) :
    Writes s tx (s.afterDraw s.ctl effs) :=
  ⟨[], .keep tx, effs, rfl, h⟩

/-- The responses around a list of calls commit nothing. -/
theorem rebased_between_responses (calls : List Effect) (r : Response) :
    (Effect.emit .hold :: (calls ++ [.emit r])).filterMap Effect.rebased? = calls.filterMap Effect.rebased? := by
  rw [List.filterMap_cons_none rfl, List.filterMap_append, List.filterMap_cons_none rfl, List.filterMap_nil, List.append_nil]

/-- No select commits a base port. -/
theorem rebased_selectCalls (c : ControlState) (v : Byte) : (c.selectCalls v).filterMap Effect.rebased? = [] := by
  unfold ControlState.selectCalls
  split <;> rfl

theorem writes_iowSelect {s t : State} {v : Byte} (hv : v ≠ unlockByte) (h : exec (.iowSelect v) s = .next t) :
    Writes s (.iow s.cfg.controlPort v) t := by
  cases hactive : s.ctl.controlActive with
  | false =>
    cases (exec_iowSelect_locked v hactive).symm.trans h
    exact writes_after (.keep _)
  | true =>
    cases (exec_iowSelect_unlocked v hactive).symm.trans h
    refine writes_after ?_
    rw [rebased_between_responses, rebased_selectCalls]
    exact .select v hv hactive

/-- The responses around the calls of a data-port write commit nothing. -/
theorem writes_dataWrite {s : State} {tx : Transaction} {op : State → State}
    (hop : s.ctl.controlActive = true → ∀ r, ∃ c calls, op (s.emit r) = (s.emit r).after c calls ∧
      CtlWrite s.cfg s.ctl tx c (calls.filterMap Effect.rebased?)) : Writes s tx (s.dataWrite op) := by
  by_cases hsel : s.ctl.selectedRegister = regFirmware
  · cases hactive : s.ctl.controlActive with
    | false =>
      rw [dataWrite_locked_slow s op hactive hsel]
      exact writes_after (.keep tx)
    | true =>
      obtain ⟨c, calls, h, hwrite⟩ := hop hactive .hold
      rw [dataWrite_slow s op c calls hactive hsel h]
      exact writes_after ((rebased_between_responses calls .done).symm ▸ hwrite)
  · cases hactive : s.ctl.controlActive with
    | false =>
      rw [dataWrite_locked_fast s op hactive hsel]
      exact writes_after (.keep tx)
    | true =>
      obtain ⟨c, calls, h, hwrite⟩ := hop hactive .done
      rw [dataWrite_fast s op c calls hactive hsel h]
      exact writes_after hwrite

theorem writes_writeLow (s : State) (v : Byte) : Writes s (.iow s.cfg.dataLowPort v) (s.dataWrite (writeLow v)) := by
  refine writes_dataWrite fun hactive r => ?_
  rcases writeLow_cases v (s.emit r) with ⟨hsel, h⟩ | ⟨-, h⟩
  · exact ⟨_, _, h, .latch v hactive hsel⟩
  · exact ⟨_, _, h.trans (State.eq_after_nil _), .keep _⟩

theorem writes_writeHigh (s : State) (v : Byte) : Writes s (.iow s.cfg.dataHighPort v) (s.dataWrite (writeHigh v)) := by
  refine writes_dataWrite fun hactive r => ?_
  rcases writeHigh_cases v (s.emit r) with ⟨hsel, h⟩ | ⟨-, h⟩ | ⟨-, -, h⟩ | ⟨-, h⟩
  · exact ⟨_, _, h, .commit v hactive hsel⟩
  · exact ⟨_, _, h, .keep _⟩
  · exact ⟨_, _, h, .keep _⟩
  · exact ⟨_, _, h.trans (State.eq_after_nil _), .keep _⟩

theorem writes_mappedRead_byte {s : State} {op : State → Byte × State} {b : Byte} (tx : Transaction)
    (h : op (s.emit .hold) = (b, s.emit .hold)) : Writes s tx (s.mappedRead op) := by
  rw [mappedRead_byte h]
  exact writes_after (.keep tx)

theorem writes_mappedRead_ask {s : State} {op : State → Byte × State} {call : Byte → Effect} (tx : Transaction)
    (hcall : ∀ b, (call b).rebased? = none) (h : op (s.emit .hold) = (s.emit .hold).ask call) :
    Writes s tx (s.mappedRead op) := by
  rw [mappedRead_ask s op call h]
  exact writes_afterDraw tx ((rebased_between_responses [_] _).trans (List.filterMap_cons_none (hcall _)))

theorem writes_readHigh (s : State) : Writes s (.ior s.cfg.dataHighPort) (s.mappedRead readHigh) := by
  rcases readHigh_cases (s.emit .hold) with ⟨b, -, h⟩ | ⟨hsel, h⟩ | ⟨call, -, -, hcall, h⟩
  · exact writes_mappedRead_byte _ h
  · rw [mappedRead_pure s readHigh _ (s.ctl.cursorMoved s.cfg)
      (h.trans (congrArg (Prod.mk _) (State.setCtl_eq_after _ _)))]
    exact writes_after (.string hsel)
  · exact writes_mappedRead_ask _ hcall h

theorem writes_readLow (s : State) : Writes s (.ior s.cfg.dataLowPort) (s.mappedRead readLow) := by
  rcases readLow_cases (s.emit .hold) with ⟨-, h⟩ | ⟨-, h⟩
  · exact writes_mappedRead_byte _ h
  · exact writes_mappedRead_ask _ (fun _ => rfl) h

/-- Everything the call of a class can do to the Control State. -/
theorem exec_class_writes {s t : State} {i : Instr} (hclass : i.isClass = true) (hwf : i.wf s.cfg = true)
    (h : exec i s = .next t) : Writes s (i.transaction s.cfg s.ctl.basePort) t := by
  cases i
  case iowUnlock =>
    cases (unlockSetsControlActive s).symm.trans h
    exact writes_after .unlock
  case iowSelect v => exact writes_iowSelect (bne_iff_ne.1 hwf) h
  case iowDataLo v => cases h; exact writes_writeLow s v
  case iowDataHi v => cases h; exact writes_writeHigh s v
  case iowBackendFast off v =>
    cases (exec_iowBackendFast s off v).symm.trans h
    exact writes_after (.keep _)
  case iowBackendSlow off v =>
    cases (exec_iowBackendSlow s off v).symm.trans h
    exact writes_after (.keep _)
  case iowUnmapped p v =>
    cases (exec_iowUnmapped s p v).symm.trans h
    exact writes_after (.keep _)
  case iorDataLo => cases h; exact writes_readLow s
  case iorDataHi => cases h; exact writes_readHigh s
  case iorBackend off => cases h; exact writes_mappedRead_ask _ (fun _ => rfl) rfl
  case iorCtrl | iorBackendSentinel => cases h; exact writes_mappedRead_byte _ rfl
  case iorUnmapped p =>
    cases (exec_iorUnmapped s p).symm.trans h
    exact writes_after (.keep _)
  all_goals cases hclass

/-- Everything a step without a reset can do to the Control State and to the committed base ports: nothing in the host's turn,
and what the call of the popped transaction does otherwise. -/
theorem step_writes {s t : State} (hreset : s.resetPending = false) (h : step s = .next t) :
    (s.popEvent = none ∧ t = s.hostIssue) ∨
    ∃ tx u, s.popEvent = some (tx, u) ∧ t.cfg = s.cfg ∧ t.contextB = s.contextB ∧ t.hostProgram = s.hostProgram ∧
      Writes s tx t := by
  obtain ⟨-, ⟨htrue, -⟩ | ⟨-, hpop, ht⟩ | ⟨-, tx, u, hpop, hexec⟩⟩ := step_cases s t h
  · simp [hreset] at htrue
  · exact .inl ⟨hpop, ht⟩
  · obtain ⟨hcfg, hctl, htrace, -, hprog, hctx⟩ := popEvent_keeps s tx u hpop
    obtain ⟨hcfg', -, -, -, hprog', hctx', -⟩ := exec_next_leaves hexec
    obtain ⟨hclass, hwf, -, htx⟩ := decode_classOf u.cfg u.ctl.basePort tx
    have hwrites := exec_class_writes hclass hwf hexec
    rw [htx] at hwrites
    simp only [Writes, Commits, hcfg, hctl, htrace] at hwrites
    exact .inr ⟨tx, u, hpop, hcfg'.trans hcfg, hctx'.trans hctx, hprog'.trans hprog, hwrites⟩

/-- The same for the Control State alone. -/
theorem step_ctlWrite {s t : State} (hreset : s.resetPending = false) (h : step s = .next t) :
    t.ctl = s.ctl ∨ ∃ tx u bases, s.popEvent = some (tx, u) ∧ CtlWrite s.cfg s.ctl tx t.ctl bases := by
  obtain ⟨-, rfl⟩ | ⟨tx, u, hpop, -, -, -, bases, hwrite, -⟩ := step_writes hreset h
  · exact .inl (hostIssue_keeps s).2.1
  · exact .inr ⟨tx, u, bases, hpop, hwrite⟩

/-! ## The invariants -/

/-- Each writer keeps the four invariants: a select stores an index that is not 0xCC and locks exactly where it is not recognized,
and the cursor moves on only below the end of the string. -/
theorem protocolInv_of_ctlWrite {s t : State} {tx : Transaction} {bases : List Word16} (hcfg : t.cfg = s.cfg)
    (hinv : s.ProtocolInv) (hwrite : CtlWrite s.cfg s.ctl tx t.ctl bases) : t.ProtocolInv := by
  obtain ⟨hcursor, hsel, hfw, hlock⟩ := hinv
  rw [State.ProtocolInv, hcfg]
  generalize t.ctl = c at hwrite ⊢
  cases hwrite with
  | keep => exact ⟨hcursor, hsel, hfw, hlock⟩
  | unlock => exact ⟨hcursor, hsel, hfw, nofun⟩
  | select v hv =>
    refine ⟨?_, hv, fun h => ?_, fun h => .inr h⟩
    · simp only [ControlState.selected]
      split
      · exact Nat.zero_le _
      · exact hcursor
    · simp only [ControlState.selected] at h ⊢
      rw [h, beq_self_eq_true, Bool.or_true]
  | latch => exact ⟨hcursor, hsel, hfw, hlock⟩
  | commit => exact ⟨hcursor, hsel, hfw, hlock⟩
  | string =>
    refine ⟨?_, hsel, hfw, hlock⟩
    simp only [ControlState.cursorMoved]
    split <;> omega

/-- The host's turn changes nothing the invariants speak of. -/
theorem protocolInv_hostIssue {s : State} (hinv : s.ProtocolInv) : s.hostIssue.ProtocolInv := by
  obtain ⟨hcfg, hctl, -⟩ := hostIssue_keeps s
  rwa [State.ProtocolInv, hcfg, hctl]

/-- Settles O43: a reset makes the invariants hold, the host's turn does not touch them, and each writer of the Control State keeps
them. -/
theorem everyStepKeepsProtocolInv : Obligations.EveryStepKeepsProtocolInv := by
  intro s t hinv h
  cases hreset : s.resetPending with
  | true =>
    cases (step_reset (step_cases s t h).1 hreset).symm.trans h
    exact protocolInv_of_ctl_reset rfl
  | false =>
    obtain ⟨-, rfl⟩ | ⟨tx, u, -, hcfg, -, -, bases, hwrite, -⟩ := step_writes hreset h
    · exact protocolInv_hostIssue hinv
    · exact protocolInv_of_ctlWrite hcfg hinv hwrite

/-- A call commits at most one base port, and that is the one it leaves; without a commit it keeps the base port. -/
theorem CtlWrite.basePort {cfg : Config} {c c' : ControlState} {tx : Transaction} {bases : List Word16}
    (h : CtlWrite cfg c tx c' bases) : (bases = [] ∧ c'.basePort = c.basePort) ∨ bases = [c'.basePort] := by
  cases h
  case commit => exact .inr rfl
  all_goals exact .inl ⟨rfl, rfl⟩

theorem committedBases_of_commits {s t : State} {bases : List Word16} (hcfg : t.cfg = s.cfg) (h : Commits s t bases) :
    t.committedBases = s.committedBases ++ bases := by
  obtain ⟨effs, htrace, rfl⟩ := h
  rw [State.committedBases, hcfg, htrace, List.filterMap_append, State.committedBases, List.cons_append]

/-- Settles O44: a step that gives `base_port` a value commits that value in its trace, or is a reset, which gives the default. -/
theorem everyStepKeepsBaseCommitted : Obligations.EveryStepKeepsBaseCommitted := by
  intro s t hinv h
  cases hreset : s.resetPending with
  | true =>
    cases (step_reset (step_cases s t h).1 hreset).symm.trans h
    exact baseCommitted_of_ctl_reset rfl
  | false =>
    obtain ⟨-, rfl⟩ | ⟨tx, u, -, hcfg, -, -, bases, hwrite, hcommits⟩ := step_writes hreset h
    · obtain ⟨hcfg, hctl, -, htrace, -⟩ := hostIssue_keeps s
      rwa [State.BaseCommitted, State.committedBases, hcfg, hctl, htrace]
    · rw [State.BaseCommitted, committedBases_of_commits hcfg hcommits, List.mem_append]
      rcases hwrite.basePort with ⟨-, hbase⟩ | hbases
      · rw [hbase]
        exact .inl hinv
      · rw [hbases]
        exact .inr (List.mem_singleton_self _)

/-! ## Who writes which field -/

/-- Settles O45: no writer clears the flag of update mode. -/
theorem updateModeIrreversible : Obligations.UpdateModeIrreversible := by
  intro s t hreset hflag h
  obtain hctl | ⟨tx, u, bases, -, hwrite⟩ := step_ctlWrite hreset h
  · rw [hctl, hflag]
  · generalize t.ctl = c at hwrite ⊢
    cases hwrite
    case select => simp only [ControlState.selected, hflag, Bool.true_or]
    all_goals exact hflag

/-- Settles O46: of the writers only the unlock and the read of the identity string act while locked. -/
theorem lockedStepProtectsState : Obligations.LockedStepProtectsState := by
  intro s t hreset hlocked h
  obtain hctl | ⟨tx, u, bases, -, hwrite⟩ := step_ctlWrite hreset h
  · rw [hctl]
  · generalize t.ctl = c at hwrite ⊢
    cases hwrite
    case keep | unlock | string => rfl
    case select _ _ hactive | latch _ hactive _ | commit _ hactive _ => exact absurd (hlocked.symm.trans hactive) (by decide)

/-- Settles O47: `control_active` is set by the unlock and cleared by a select alone, which clears it where the index is not
recognized. -/
theorem controlActiveWriters : Obligations.ControlActiveWriters := by
  intro s t hreset h
  obtain hctl | ⟨tx, u, bases, hpop, hwrite⟩ := step_ctlWrite hreset h
  · rw [hctl]
    exact ⟨fun hf ht => absurd (hf.symm.trans ht) (by decide), fun ht hf => absurd (hf.symm.trans ht) (by decide)⟩
  · generalize t.ctl = c at hwrite ⊢
    cases hwrite
    case unlock => exact ⟨fun _ _ => ⟨u, hpop⟩, fun _ => nofun⟩
    case select v hv hactive =>
      exact ⟨fun hf _ => absurd (hf.symm.trans hactive) (by decide), fun _ hf => ⟨v, u, hpop, hv, hf⟩⟩
    all_goals exact ⟨fun hf ht => absurd (hf.symm.trans ht) (by decide), fun ht hf => absurd (hf.symm.trans ht) (by decide)⟩

/-- Settles O48: the commit alone writes `base_port`, and the latch alone the staging byte. -/
theorem basePortWriters : Obligations.BasePortWriters := by
  intro s t hreset h
  obtain hctl | ⟨tx, u, bases, hpop, hwrite⟩ := step_ctlWrite hreset h
  · rw [hctl]
    exact ⟨fun hne => absurd rfl hne, fun hne => absurd rfl hne⟩
  · generalize t.ctl = c at hwrite ⊢
    cases hwrite
    case latch v hactive hsel => exact ⟨fun hne => absurd rfl hne, fun _ => ⟨hactive, hsel, u, hpop⟩⟩
    case commit v hactive hsel => exact ⟨fun _ => ⟨hactive, hsel, v, u, hpop⟩, fun hne => absurd rfl hne⟩
    all_goals exact ⟨fun hne => absurd rfl hne, fun hne => absurd rfl hne⟩

/-- Settles O49: the one writer that is a read is that of the string cursor. -/
theorem readsChangeOnlyTheCursor : Obligations.ReadsChangeOnlyTheCursor := by
  intro s t u p hreset hpop h
  obtain hctl | ⟨tx, u', bases, hpop', hwrite⟩ := step_ctlWrite hreset h
  · rw [hctl]
    exact ⟨rfl, fun hne => absurd rfl hne⟩
  · obtain ⟨rfl, -⟩ : .ior p = tx ∧ u = u' := by simpa using hpop.symm.trans hpop'
    generalize t.ctl = c at hwrite ⊢
    cases hwrite with
    | keep => exact ⟨rfl, fun hne => absurd rfl hne⟩
    | string hsel => exact ⟨rfl, fun _ => ⟨rfl, hsel⟩⟩

/-! ## Context B's read -/

/-- What a step may do to a read in progress: it stays in progress, and sees at most the value the step gives `base_port`. -/
def ContextBSees (s t : State) : Prop :=
  t.ContextBMarked ∧ t.contextB ≠ none ∧
    ((t.contextBCandidates = s.contextBCandidates ∧ t.ctl.basePort = s.ctl.basePort) ∨
      t.contextBCandidates = s.contextBCandidates ++ [t.ctl.basePort])

theorem contextBMarked_of_some {s : State} {r : ContextBRead} (hr : s.contextB = some r) (hmark : r.mark ≤ s.trace.length) :
    s.ContextBMarked := by
  rintro r' hr'
  cases hr.symm.trans hr'
  exact hmark

theorem contextBCandidates_of_some {s : State} {r : ContextBRead} (hr : s.contextB = some r) :
    s.contextBCandidates = r.first :: r.seen s.trace := by
  rw [State.contextBCandidates, hr]

/-- A reset gives the read the default base port as one more value (log entry 9). -/
theorem contextBSees_externalReset {s : State} {r : ContextBRead} (hr : s.contextB = some r) :
    ContextBSees s s.externalReset := by
  have hreset : s.externalReset.contextB = some (r.throughReset s.trace s.cfg.defaultBasePort) := by
    rw [State.externalReset_contextB, hr, Option.map_some]
  refine ⟨contextBMarked_of_some hreset (Nat.le_refl _), Option.ne_none_iff_exists'.2 ⟨_, hreset⟩, .inr ?_⟩
  rw [contextBCandidates_of_some hreset, contextBCandidates_of_some hr, State.externalReset_trace,
    ContextBRead.throughReset_seen]
  rfl

/-- A call shows the read the base ports it commits, of which there is at most one. -/
theorem contextBSees_of_writes {s t : State} {tx : Transaction} {r : ContextBRead} (hr : s.contextB = some r)
    (hmark : r.mark ≤ s.trace.length) (hctx : t.contextB = s.contextB) (h : Writes s tx t) : ContextBSees s t := by
  obtain ⟨bases, hwrite, effs, htrace, heffs⟩ := h
  have hr' : t.contextB = some r := hctx.trans hr
  have hcands : t.contextBCandidates = s.contextBCandidates ++ bases := by
    rw [contextBCandidates_of_some hr', contextBCandidates_of_some hr, htrace, r.seen_append _ _ hmark, heffs,
      List.cons_append]
  refine ⟨contextBMarked_of_some hr' (by rw [htrace, List.length_append]; omega), Option.ne_none_iff_exists'.2 ⟨r, hr'⟩, ?_⟩
  rcases hwrite.basePort with ⟨rfl, hbase⟩ | rfl
  · exact .inl ⟨hcands.trans (List.append_nil _), hbase⟩
  · exact .inr hcands

theorem contextBSees_hostIssue {s : State} {r : ContextBRead} (hr : s.contextB = some r) (hmark : r.mark ≤ s.trace.length) :
    ContextBSees s s.hostIssue := by
  obtain ⟨-, hctl, hctx, htrace, -, -⟩ := hostIssue_keeps s
  have hr' : s.hostIssue.contextB = some r := hctx.trans hr
  refine ⟨contextBMarked_of_some hr' (by rwa [htrace]), Option.ne_none_iff_exists'.2 ⟨r, hr'⟩, .inl ⟨?_, by rw [hctl]⟩⟩
  rw [contextBCandidates_of_some hr', contextBCandidates_of_some hr, htrace]

/-- The free index stays among the candidates. -/
theorem contextBRead_mem (s : State) : (contextBRead s).1 ∈ s.contextBCandidates := by
  have hlt := Nat.mod_lt (Config.freeIndex s.draws) (List.length_pos_of_ne_nil (contextBCandidates_ne_nil s))
  rw [contextBRead, List.getD_eq_getElem _ _ hlt]
  exact List.getElem_mem hlt

/-- Settles O59: a read begins with the present value; the reset, the host's turn and a call each show it at most the value they
give `base_port`; it ends with one of the values it has seen. -/
theorem contextBSeesCommittedBase : Obligations.ContextBSeesCommittedBase := by
  refine ⟨fun s => ⟨beginContextBRead_candidates s, contextBMarked_of_some rfl (Nat.le_refl _), rfl⟩,
    fun s t hmarked hreading h => ?_, fun s => ⟨contextBRead_mem s, rfl⟩⟩
  obtain ⟨r, hr⟩ := Option.ne_none_iff_exists'.1 hreading
  change ContextBSees s t
  cases hreset : s.resetPending with
  | true =>
    cases (step_reset (step_cases s t h).1 hreset).symm.trans h
    exact contextBSees_externalReset hr
  | false =>
    obtain ⟨-, rfl⟩ | ⟨tx, u, -, -, hctx, -, hwrites⟩ := step_writes hreset h
    · exact contextBSees_hostIssue hr (hmarked r hr)
    · exact contextBSees_of_writes hr (hmarked r hr) hctx hwrites

end Sys2Proof.Machine
end

section
/-!
PROOFS. Two runs that differ in a field no transaction of a kind reads stay so (spec/40_bus_dispatch.md section 4, D10, D24; check
N-6 of spec/95_test_vectors.md): `exec` commutes with a change of that field.
-/

namespace Sys2Proof.Machine

/-! ## Operations that commute with a change of the state -/

/-- An operation does the same before and after the change `g`. -/
def Commutes (g op : State → State) : Prop := ∀ u, op (g u) = g (op u)

/-- The same of an operation with an answer, which the change leaves as it is. -/
def ReadCommutes (g : State → State) (op : State → Byte × State) : Prop := ∀ u, op (g u) = ((op u).1, g (op u).2)

/-- `exec` of an instruction does the same before and after the change `g`. -/
def ExecCommutes (g : State → State) (i : Instr) (s : State) : Prop :=
  ∀ t, exec i s = .next t → exec i (g s) = .next (g t)

section
variable {g : State → State}

theorem execCommutes_of_next {i : Instr} {s t : State} (h : exec i s = .next t) (h' : exec i (g s) = .next (g t)) :
    ExecCommutes g i s := by
  rintro u hu
  cases h.symm.trans hu
  exact h'

theorem mappedRead_commutes {op : State → Byte × State} (hemit : ∀ r, Commutes g (·.emit r)) (hop : ReadCommutes g op) :
    Commutes g (·.mappedRead op) := by
  intro u
  have hhold : (g u).emit .hold = g (u.emit .hold) := hemit .hold u
  simp only [State.mappedRead, hhold, hop (u.emit .hold)]
  exact hemit _ _

theorem controlWrite_commutes {op : State → State} (hemit : ∀ r, Commutes g (·.emit r)) (hop : Commutes g op) :
    Commutes g (·.controlWrite op) := by
  intro u
  have hhold : (g u).emit .hold = g (u.emit .hold) := hemit .hold u
  simp only [State.controlWrite, hhold, hop (u.emit .hold)]
  exact hemit _ _

theorem whenUnlocked_commutes {op : State → State} (hactive : ∀ u, (g u).ctl.controlActive = u.ctl.controlActive)
    (hop : Commutes g op) : Commutes g (·.whenUnlocked op) := by
  intro u
  simp only [State.whenUnlocked, hactive, hop u]
  exact (apply_ite g _ _ _).symm

/-- The timing class of a data-port write is that of the selected register. -/
theorem dataWrite_commutes {op : State → State} (hemit : ∀ r, Commutes g (·.emit r))
    (hactive : ∀ u, (g u).ctl.controlActive = u.ctl.controlActive)
    (hsel : ∀ u, (g u).ctl.selectedRegister = u.ctl.selectedRegister) (hop : Commutes g op) :
    Commutes g (·.dataWrite op) := by
  intro u
  have hresp (r : Response) (w : State) : (g w).emit r = g (w.emit r) := hemit r w
  have hgate (w : State) : (g w).whenUnlocked op = g (w.whenUnlocked op) := whenUnlocked_commutes hactive hop w
  simp only [State.dataWrite, ControlState.slowDataWrite, hsel, hresp, hgate]
  exact (apply_ite g _ _ _).symm

end

/-! ## Reads -/

/-- A change that no read looks at: a read uses the configuration, the selected register, the base port and the cursor, draws an
answer, and moves the cursor. -/
structure ReadBlind (g : State → State) : Prop where
  cfg : ∀ u, (g u).cfg = u.cfg
  selectedRegister : ∀ u, (g u).ctl.selectedRegister = u.ctl.selectedRegister
  basePort : ∀ u, (g u).ctl.basePort = u.ctl.basePort
  stringCursor : ∀ u, (g u).ctl.stringCursor = u.ctl.stringCursor
  emit : ∀ r, Commutes g (·.emit r)
  ask : ∀ call, ReadCommutes g (·.ask call)
  setCursor : ∀ n, Commutes g fun u => u.setCtl { u.ctl with stringCursor := n }

section
variable {g : State → State}

theorem readHigh_commutes (hg : ReadBlind g) : ReadCommutes g readHigh := by
  intro u
  simp only [readHigh, hg.cfg, hg.selectedRegister]
  cases u.cfg.readHighOp u.ctl.selectedRegister
  case version => exact congrArg (fun cfg => (Config.protocolVersion cfg, g u)) (hg.cfg u)
  case string =>
    simp only [readString, hg.cfg, hg.stringCursor]
    exact congrArg (Prod.mk _) (hg.setCursor _ u)
  case type => exact congrArg (fun cfg => (Config.backendType cfg, g u)) (hg.cfg u)
  case base => simp only [readBaseHigh, hg.basePort]
  case firmware => exact hg.ask _ u
  case tuning =>
    simp only [readTuning, hg.selectedRegister]
    exact hg.ask _ u
  case unrecognized => exact hg.ask _ u
  case magic => rfl

theorem readLow_commutes (hg : ReadBlind g) : ReadCommutes g readLow := by
  intro u
  simp only [readLow, hg.selectedRegister]
  cases readLowOp u.ctl.selectedRegister
  case base => simp only [readBaseLow, hg.basePort]
  case other => exact hg.ask _ u

/-- The class of a read, whichever it is, is one template around an operation that commutes with the change. -/
theorem exec_read_commutes (hg : ReadBlind g) (s : State) (base : Word16) (p : Port) :
    ExecCommutes g (decodeIor s.cfg base p) s := by
  obtain ⟨hclass, -, -, htx⟩ := decodeIor_classOf s.cfg base p
  generalize decodeIor s.cfg base p = i at hclass htx
  have hread {op : State → Byte × State} (hop : ReadCommutes g op) := congrArg (Host.Outcome.next (φ := Fault) (ρ := Refusal))
    (mappedRead_commutes hg.emit hop s)
  cases i
  case iorCtrl => exact execCommutes_of_next rfl (hread fun u => Prod.ext (hg.selectedRegister u) rfl)
  case iorDataLo => exact execCommutes_of_next rfl (hread (readLow_commutes hg))
  case iorDataHi => exact execCommutes_of_next rfl (hread (readHigh_commutes hg))
  case iorBackendSentinel => exact execCommutes_of_next rfl (hread fun _ => rfl)
  case iorBackend => exact execCommutes_of_next rfl (hread (hg.ask _))
  case iorUnmapped => exact execCommutes_of_next rfl (congrArg Host.Outcome.next (hg.emit .done s))
  case iowUnlock | iowSelect | iowDataLo | iowDataHi | iowBackendFast | iowBackendSlow | iowUnmapped => cases htx
  all_goals cases hclass

end

/-- A change of the Control State in fields that no read looks at. -/
theorem readBlind_setCtl {f : ControlState → ControlState} (hsel : ∀ c, (f c).selectedRegister = c.selectedRegister)
    (hbase : ∀ c, (f c).basePort = c.basePort) (hcursor : ∀ c, (f c).stringCursor = c.stringCursor)
    (hset : ∀ c n, { f c with stringCursor := n } = f { c with stringCursor := n }) :
    ReadBlind fun u => u.setCtl (f u.ctl) where
  cfg _ := rfl
  selectedRegister u := hsel u.ctl
  basePort u := hbase u.ctl
  stringCursor u := hcursor u.ctl
  emit _ _ := rfl
  ask _ _ := rfl
  setCursor n u := congrArg u.setCtl (hset u.ctl n)

/-- Settles O54: `control_active` is none of the fields a read looks at. -/
theorem readsIgnoreControlActive : Obligations.ReadsIgnoreControlActive := fun s t p b =>
  have hblind := readBlind_setCtl (f := fun c => { c with controlActive := b })
    (fun _ => rfl) (fun _ => rfl) (fun _ => rfl) (fun _ _ => rfl)
  exec_read_commutes hblind s s.ctl.basePort p t

/-- Settles O56: nor is the staging byte. -/
theorem readsIgnoreStagingByte : Obligations.ReadsIgnoreStagingByte := fun s t p b =>
  have hblind := readBlind_setCtl (f := fun c => { c with basePortStagingLow := b })
    (fun _ => rfl) (fun _ => rfl) (fun _ => rfl) (fun _ _ => rfl)
  exec_read_commutes hblind s s.ctl.basePort p t

/-! ## Writes -/

/-- A change that no write but a select looks at. -/
structure WriteBlind (g : State → State) : Prop where
  controlActive : ∀ u, (g u).ctl.controlActive = u.ctl.controlActive
  selectedRegister : ∀ u, (g u).ctl.selectedRegister = u.ctl.selectedRegister
  push : ∀ e, Commutes g (·.push e)
  unlock : Commutes g unlock
  writeLow : ∀ v, Commutes g (writeLow v)
  writeHigh : ∀ v, Commutes g (writeHigh v)

/-- The class of a write, whichever it is, commutes with the change, if the select it may be does. -/
theorem exec_write_commutes {g : State → State} (hg : WriteBlind g) (s : State) (base : Word16) {p : Port} {v : Byte}
    (hselect : p = s.cfg.controlPort → Commutes g (select v)) : ExecCommutes g (decodeIow s.cfg base p v) s := by
  obtain ⟨hclass, -, -, htx⟩ := decodeIow_classOf s.cfg base p v
  generalize decodeIow s.cfg base p v = i at hclass htx
  have hemit (r : Response) : Commutes g (·.emit r) := hg.push (.emit r)
  have hdata {op : State → State} (hop : Commutes g op) := congrArg (Host.Outcome.next (φ := Fault) (ρ := Refusal))
    (dataWrite_commutes hemit hg.controlActive hg.selectedRegister hop s)
  have hcontrol {op : State → State} (hop : Commutes g op) := congrArg (Host.Outcome.next (φ := Fault) (ρ := Refusal))
    (controlWrite_commutes hemit hop s)
  cases i
  case iowUnlock => exact execCommutes_of_next rfl (hcontrol hg.unlock)
  case iowSelect w =>
    obtain ⟨hp, rfl⟩ := Transaction.iow.inj htx
    exact execCommutes_of_next rfl (hcontrol (whenUnlocked_commutes hg.controlActive (hselect hp.symm)))
  case iowDataLo w => exact execCommutes_of_next rfl (hdata (hg.writeLow w))
  case iowDataHi w => exact execCommutes_of_next rfl (hdata (hg.writeHigh w))
  case iowBackendFast off w =>
    refine execCommutes_of_next rfl (congrArg Host.Outcome.next ?_)
    exact (congrArg (·.push (.backendWrite off w)) (hemit .done s)).trans (hg.push _ _)
  case iowBackendSlow off w =>
    refine execCommutes_of_next rfl (congrArg Host.Outcome.next ?_)
    exact (congrArg (fun u => (u.push (.backendWrite off w)).emit .done) (hemit .hold s)).trans
      ((congrArg (·.emit .done) (hg.push _ _)).trans (hemit _ _))
  case iowUnmapped => exact execCommutes_of_next rfl (congrArg Host.Outcome.next (hemit .done s))
  case iorCtrl | iorDataLo | iorDataHi | iorBackendSentinel | iorBackend | iorUnmapped => cases htx
  all_goals cases hclass

/-! ## The flag of update mode -/

/-- The state with another flag of update mode. -/
def State.setUpdateFlag (b : Bool) (s : State) : State := s.setCtl { s.ctl with firmwareUpdateActive := b }

theorem readBlind_setUpdateFlag (b : Bool) : ReadBlind (State.setUpdateFlag b) :=
  readBlind_setCtl (f := fun c => { c with firmwareUpdateActive := b })
    (fun _ => rfl) (fun _ => rfl) (fun _ => rfl) (fun _ _ => rfl)

theorem writeLow_setUpdateFlag (b : Bool) (v : Byte) : Commutes (State.setUpdateFlag b) (writeLow v) := by
  intro u
  have hsel : (u.setUpdateFlag b).ctl.selectedRegister = u.ctl.selectedRegister := rfl
  rw [writeLow, writeLow, hsel]
  cases writeLowOp u.ctl.selectedRegister <;> rfl

theorem writeHigh_setUpdateFlag (b : Bool) (v : Byte) : Commutes (State.setUpdateFlag b) (writeHigh v) := by
  intro u
  have hsel : (u.setUpdateFlag b).ctl.selectedRegister = u.ctl.selectedRegister := rfl
  have hcfg : (u.setUpdateFlag b).cfg = u.cfg := rfl
  rw [writeHigh, writeHigh, hsel, hcfg]
  cases u.cfg.writeHighOp u.ctl.selectedRegister <;> rfl

theorem writeBlind_setUpdateFlag (b : Bool) : WriteBlind (State.setUpdateFlag b) where
  controlActive _ := rfl
  selectedRegister _ := rfl
  push _ _ := rfl
  unlock _ := rfl
  writeLow := writeLow_setUpdateFlag b
  writeHigh := writeHigh_setUpdateFlag b

theorem selectOp_ne_firmware (cfg : Config) {v : Byte} (hv : v ≠ regFirmware) : cfg.selectOp v ≠ .firmware := by
  unfold Config.selectOp
  split_ifs <;> simp_all

/-- Only the select of 0xFF looks at the flag (R158). -/
theorem select_setUpdateFlag (b : Bool) {v : Byte} (hv : v ≠ regFirmware) : Commutes (State.setUpdateFlag b) (select v) := by
  intro u
  have hcfg : (u.setUpdateFlag b).cfg = u.cfg := rfl
  rw [select, select, hcfg]
  cases h : u.cfg.selectOp v
  case firmware => exact absurd h (selectOp_ne_firmware u.cfg hv)
  all_goals rfl

/-- Settles O55: no read looks at the flag, and of the writes the select of 0xFF alone. -/
theorem updateFlagRoutesNothing : Obligations.UpdateFlagRoutesNothing := by
  intro s t tx b hne
  cases tx with
  | ior p => exact exec_read_commutes (readBlind_setUpdateFlag b) s s.ctl.basePort p t
  | iow p v =>
    refine exec_write_commutes (writeBlind_setUpdateFlag b) s s.ctl.basePort (fun hp => select_setUpdateFlag b ?_) t
    rintro rfl
    exact hne (by rw [hp])

end Sys2Proof.Machine
end

section
/-!
PROOFS. Runs: the host's transactions (spec/20_memory.md section 5, spec/70_reset_and_hazards.md section 3, D17) and the vectors W3
and W4 of spec/95_test_vectors.md section 2.
-/

namespace Sys2Proof.Machine

theorem run_succ_of_step {M : Host.Core} {s t : M.State} (k : Nat) (h : M.step s = .next t) : M.run (k + 1) s = M.run k t := by
  rw [Host.Core.run, h]

theorem dispatchAll_cons {s t : State} {tx : Transaction} (rest : List Transaction)
    (h : exec (decode s.cfg s.ctl.basePort tx) s = .next t) : dispatchAll (tx :: rest) s = dispatchAll rest t := by
  rw [dispatchAll, h]

/-! ## No transaction looks at what the host is still to issue -/

/-- The state with another program of the host. -/
def State.withProgram (txs : List Transaction) (s : State) : State := { s with hostProgram := txs }

theorem readBlind_withProgram (txs : List Transaction) : ReadBlind (State.withProgram txs) where
  cfg _ := rfl
  selectedRegister _ := rfl
  basePort _ := rfl
  stringCursor _ := rfl
  emit _ _ := rfl
  ask _ _ := rfl
  setCursor _ _ := rfl

theorem writeLow_withProgram (txs : List Transaction) (v : Byte) : Commutes (State.withProgram txs) (writeLow v) := by
  intro u
  have hctl : (u.withProgram txs).ctl = u.ctl := rfl
  rw [writeLow, writeLow, hctl]
  cases writeLowOp u.ctl.selectedRegister <;> rfl

theorem writeHigh_withProgram (txs : List Transaction) (v : Byte) : Commutes (State.withProgram txs) (writeHigh v) := by
  intro u
  have hctl : (u.withProgram txs).ctl = u.ctl := rfl
  have hcfg : (u.withProgram txs).cfg = u.cfg := rfl
  rw [writeHigh, writeHigh, hctl, hcfg]
  cases u.cfg.writeHighOp u.ctl.selectedRegister <;> rfl

theorem select_withProgram (txs : List Transaction) (v : Byte) : Commutes (State.withProgram txs) (select v) := by
  intro u
  have hctl : (u.withProgram txs).ctl = u.ctl := rfl
  have hcfg : (u.withProgram txs).cfg = u.cfg := rfl
  rw [select, select, hcfg]
  cases u.cfg.selectOp v
  case firmware =>
    rw [selectFirmware, selectFirmware, hctl]
    cases u.ctl.firmwareUpdateActive <;> rfl
  all_goals rfl

theorem writeBlind_withProgram (txs : List Transaction) : WriteBlind (State.withProgram txs) where
  controlActive _ := rfl
  selectedRegister _ := rfl
  push _ _ := rfl
  unlock _ := rfl
  writeLow := writeLow_withProgram txs
  writeHigh := writeHigh_withProgram txs

theorem exec_withProgram (txs : List Transaction) (s : State) (tx : Transaction) :
    ExecCommutes (State.withProgram txs) (decode s.cfg s.ctl.basePort tx) s := by
  cases tx with
  | iow p v => exact exec_write_commutes (writeBlind_withProgram txs) s s.ctl.basePort fun _ => select_withProgram txs v
  | ior p => exact exec_read_commutes (readBlind_withProgram txs) s s.ctl.basePort p

/-! ## Issuing and dispatching -/

/-- A state in which the host may issue: no reset is due and no event is queued. -/
structure State.Ready (s : State) : Prop where
  wf : s.cfg.wf = true
  noReset : s.resetPending = false
  noWrite : s.iowQueue = []
  noRead : s.iorQueue = []

theorem State.Ready.popEvent {s : State} (h : s.Ready) : s.popEvent = none :=
  (popEvent_none s).2 ⟨h.noWrite, h.noRead⟩

theorem ready_withProgram {s : State} (h : s.Ready) (txs : List Transaction) : (s.withProgram txs).Ready :=
  ⟨h.wf, h.noReset, h.noWrite, h.noRead⟩

/-- A dispatch call leaves the host free to issue again (R120). -/
theorem ready_of_leaves {s t : State} (hs : s.Ready) (h : Leaves s t) : t.Ready := by
  obtain ⟨hcfg, hwrite, hread, hreset, -, -, -⟩ := h
  exact ⟨hcfg ▸ hs.wf, hreset.trans hs.noReset, hwrite.trans hs.noWrite, hread.trans hs.noRead⟩

/-- The host's turn issues the head of its program. -/
theorem step_issue {s : State} {tx : Transaction} {rest : List Transaction} (hs : s.Ready) (hprog : s.hostProgram = tx :: rest) :
    step s = .next ((s.withProgram rest).deliver tx) := by
  rw [step_host hs.wf hs.noReset hs.popEvent, State.hostIssue, hprog]
  rfl

/-- An issued transaction is the only event, and the next step dispatches it. -/
theorem step_issued {s : State} (hs : s.Ready) (tx : Transaction) :
    step (s.deliver tx) = exec (decode s.cfg s.ctl.basePort tx) s := by
  obtain ⟨hwf, hreset, hwrite, hread⟩ := hs
  cases tx with
  | iow p v =>
    have hpop : (s.deliver (.iow p v)).popEvent = some (.iow p v, { s with iowQueue := [] }) :=
      popEvent_write (w := ⟨p, v⟩) (by rw [deliver_iow, hwrite]; rfl) hread
    rw [← hwrite] at hpop
    exact step_dispatch (s := s.deliver (.iow p v)) hwf hreset hpop
  | ior p =>
    have hpop : (s.deliver (.ior p)).popEvent = some (.ior p, { s with iorQueue := [] }) :=
      popEvent_read hwrite (by rw [deliver_ior, hread]; rfl)
    rw [← hread] at hpop
    exact step_dispatch (s := s.deliver (.ior p)) hwf hreset hpop

/-- A program runs as the dispatch calls of its transactions, two steps each. -/
theorem run_program (txs : List Transaction) {s : State} (hs : s.Ready) :
    Host.Core.run Sys2Proof.core (2 * txs.length) (s.withProgram txs) = dispatchAll txs (s.withProgram []) := by
  induction txs generalizing s with
  | nil => rfl
  | cons tx rest ih =>
    obtain ⟨t, hexec, hleaves⟩ := exec_leaves (decode s.cfg s.ctl.basePort tx) s
    have hissue : step (s.withProgram (tx :: rest)) = .next ((s.withProgram rest).deliver tx) :=
      step_issue (ready_withProgram hs _) rfl
    have hrun : step ((s.withProgram rest).deliver tx) = .next (t.withProgram rest) :=
      (step_issued (ready_withProgram hs rest) tx).trans (exec_withProgram rest s tx t hexec)
    have hrest := (ih (ready_of_leaves hs hleaves)).trans
      (dispatchAll_cons (s := s.withProgram []) rest (exec_withProgram [] s tx t hexec)).symm
    exact (run_succ_of_step (M := Sys2Proof.core) _ hissue).trans
      ((run_succ_of_step (M := Sys2Proof.core) _ hrun).trans hrest)

/-! ## The host contract (R74, R240) -/

theorem ready_of_not_waiting {s : State} (hcfg : s.cfg.wf = true) (hreset : s.resetPending = false)
    (hwait : s.hostWaiting = false) : s.Ready := by
  obtain ⟨hwrite, hread⟩ := (popEvent_none s).1 ((hostWaiting_false s).1 hwait)
  exact ⟨hcfg, hreset, hwrite, hread⟩

/-- A host that waits issues nothing. -/
theorem step_keeps_hostProgram_of_waiting {s t : State} (hwait : s.hostWaiting = true) (h : step s = .next t) :
    t.hostProgram = s.hostProgram := by
  cases hreset : s.resetPending with
  | true =>
    cases (step_reset (step_cases s t h).1 hreset).symm.trans h
    rfl
  | false =>
    obtain ⟨hpop, -⟩ | ⟨tx, u, -, -, -, hprog, -⟩ := step_writes hreset h
    · simp [(hostWaiting_false s).2 hpop] at hwait
    · exact hprog

/-- The host issues one transaction, and only into empty queues. -/
theorem oneOutstanding_hostIssue {s : State} (hpop : s.popEvent = none) : s.hostIssue.OneOutstanding := by
  obtain ⟨hwrite, hread⟩ := (popEvent_none s).1 hpop
  rcases hostIssue_cases s with ⟨-, h⟩ | ⟨tx, rest, -, h⟩ <;> rw [h]
  · simp [State.OneOutstanding, hwrite, hread]
  · cases tx <;> simp [State.OneOutstanding, hwrite, hread]

/-- Popping an event leaves one fewer. -/
theorem oneOutstanding_of_popEvent {s u : State} {tx : Transaction} (hpop : s.popEvent = some (tx, u))
    (hone : s.OneOutstanding) : u.OneOutstanding := by
  unfold State.OneOutstanding at hone ⊢
  rcases popEvent_cases s tx u hpop with ⟨w, ws, hq, -, ⟨-, rfl⟩ | ⟨-, rfl⟩⟩ | ⟨r, rs, hq, -, ⟨-, rfl⟩ | ⟨-, rfl⟩⟩ <;>
    (rw [hq, List.length_cons] at hone; simp only [State.advanceDraw]; omega)

theorem step_keeps_oneOutstanding {s t : State} (hone : s.OneOutstanding) (h : step s = .next t) : t.OneOutstanding := by
  obtain ⟨-, ⟨-, rfl⟩ | ⟨-, hpop, rfl⟩ | ⟨-, tx, u, hpop, hexec⟩⟩ := step_cases s t h
  · exact Nat.zero_le 1
  · exact oneOutstanding_hostIssue hpop
  · obtain ⟨-, hwrite, hread, -⟩ := exec_next_leaves hexec
    rw [State.OneOutstanding, hwrite, hread]
    exact oneOutstanding_of_popEvent hpop hone

/-- Settles O60: the host issues into empty queues alone, and the program runs by induction over its transactions. -/
theorem hostTransactionsRunInIssueOrder : Obligations.HostTransactionsRunInIssueOrder :=
  ⟨fun _ _ _ hcfg hreset hwait hprog => step_issue (ready_of_not_waiting hcfg hreset hwait) hprog,
   fun _ _ hwait h => step_keeps_hostProgram_of_waiting hwait h,
   fun _ _ hone h => step_keeps_oneOutstanding hone h,
   fun s hcfg hreset hwait => run_program s.hostProgram (ready_of_not_waiting hcfg hreset hwait)⟩

/-! ## SETBASE (R106) -/

theorem halves_toNat (p : Word16) : p.toNat = 256 * (highHalf p).toNat + (lowHalf p).toNat := by
  rw [highHalf, lowHalf, BitVec.extractLsb'_toNat, BitVec.extractLsb'_toNat, Nat.shiftRight_eq_div_pow, Nat.shiftRight_zero]
  omega

/-- W3's first write. -/
theorem dispatch_select_base {s : State} (hactive : s.ctl.controlActive = true) :
    exec (decode s.cfg s.ctl.basePort (.iow s.cfg.controlPort regBase)) s =
      .next (s.after { s.ctl with selectedRegister := regBase } [.emit .hold, .emit .done]) := by
  rw [decode, decodeIow_select _ _ (by decide), ← exec_selectInstr]
  exact (selectBaseAndTuning s 0 hactive).1

/-- W3's second write. -/
theorem dispatch_low_write {s : State} (l : Byte) (hcfg : s.cfg.wf = true) (hactive : s.ctl.controlActive = true)
    (hsel : s.ctl.selectedRegister = regBase) :
    exec (decode s.cfg s.ctl.basePort (.iow s.cfg.dataLowPort l)) s =
      .next (s.after { s.ctl with basePortStagingLow := l } [.emit .done]) := by
  rw [decode, decodeIow_dataLo _ l (s.cfg.ports_ne hcfg).1.symm]
  exact lowWriteLatchesStaging s l hactive hsel _ (List.mem_cons_of_mem _ (List.mem_cons_self ..))

/-- W3's third write, for the base port whose low half is staged. -/
theorem dispatch_high_write {s : State} (p : Word16) (hcfg : s.cfg.wf = true) (hactive : s.ctl.controlActive = true)
    (hsel : s.ctl.selectedRegister = regBase) (hlow : s.ctl.basePortStagingLow = lowHalf p) :
    exec (decode s.cfg s.ctl.basePort (.iow s.cfg.dataHighPort (highHalf p))) s =
      .next (s.after { s.ctl with basePort := p } [.emit .done, .backendRebase p]) := by
  obtain ⟨-, hhc, hhl⟩ := s.cfg.ports_ne hcfg
  rw [decode, decodeIow_dataHi _ _ hhc.symm hhl.symm]
  exact highWriteCommitsBase s (highHalf p) p hactive hsel (by rw [hlow]; exact halves_toNat p) _
    (List.mem_cons_of_mem _ (List.mem_cons_self ..))

/-- The three writes of SETBASE, dispatched one after the other. -/
theorem dispatchAll_setBase {s : State} (p : Word16) (hcfg : s.cfg.wf = true) (hactive : s.ctl.controlActive = true) :
    dispatchAll ((Asm.setBase p).expand s.cfg) s = .next (s.after
      { s.ctl with selectedRegister := 0x04, basePortStagingLow := lowHalf p, basePort := p }
      [.emit .hold, .emit .done, .emit .done, .emit .done, .backendRebase p]) := by
  have hselect := dispatchAll_cons [.iow s.cfg.dataLowPort (lowHalf p), .iow s.cfg.dataHighPort (highHalf p)]
    (dispatch_select_base hactive)
  refine hselect.trans ?_
  have hlow := dispatchAll_cons [.iow s.cfg.dataHighPort (highHalf p)]
    (dispatch_low_write (s := s.after { s.ctl with selectedRegister := regBase } [.emit .hold, .emit .done]) (lowHalf p)
      hcfg hactive rfl)
  refine hlow.trans ?_
  rw [State.after_after]
  have hhigh := dispatch_high_write (p := p)
    (s := s.after { s.ctl with selectedRegister := regBase, basePortStagingLow := lowHalf p }
      [.emit .hold, .emit .done, .emit .done]) hcfg hactive rfl rfl
  refine (dispatchAll_cons [] hhigh).trans ?_
  rw [State.after_after]
  rfl

/-- Settles O53: the host's program runs as its three dispatch calls. -/
theorem setBaseMovesTheRegion : Obligations.SetBaseMovesTheRegion := by
  intro s p hcfg hreset hactive hwrite hread hprog
  have hidle : s.withProgram [] = s := by rw [← hprog]; rfl
  have hrequest : s.request ((Asm.setBase p).expand s.cfg) = s.withProgram ((Asm.setBase p).expand s.cfg) := by
    rw [State.request, hprog, List.nil_append]
    rfl
  rw [hrequest]
  refine (run_program ((Asm.setBase p).expand s.cfg) ⟨hcfg, hreset, hwrite, hread⟩).trans ?_
  rw [hidle]
  exact dispatchAll_setBase p hcfg hactive

/-! ## The identity string (W4) -/

/-- `ID(i)` is the string with its terminator, up to `i = L` (R17). -/
theorem idByte_eq_getElem (cfg : Config) {n : Nat} (h : n < (cfg.idString ++ [0x00]).length) :
    cfg.idByte n = (cfg.idString ++ [0x00])[n] := by
  rw [List.length_append, List.length_singleton] at h
  rcases Nat.lt_or_eq_of_le (Nat.le_of_lt_succ h) with hlt | rfl
  · rw [Config.idByte_of_lt hlt, List.getElem_append_left hlt]
  · rw [Config.idByte_length, List.getElem_concat_length rfl]

/-- The effects of reading the bytes of a list one by one. -/
def readResponses (bytes : List Byte) : List Effect := bytes.flatMap fun b => [.emit .hold, .emit (.doneData b)]

/-- The state after the reads that stream the string from its `n`-th byte through its terminator. -/
def State.streamed (s : State) (n : Nat) : State :=
  { s with
    iorQueue := []
    ctl := { s.ctl with stringCursor := 0 }
    trace := s.trace ++ readResponses ((s.cfg.idString ++ [0x00]).drop n) }

/-- A pending high read of register 0x02 is one step (R172). -/
theorem step_readString {s : State} {rs : List Port} (hcfg : s.cfg.wf = true) (hreset : s.resetPending = false)
    (hsel : s.ctl.selectedRegister = regString) (hwrite : s.iowQueue = []) (hread : s.iorQueue = s.cfg.dataHighPort :: rs) :
    step s = .next ({ s with iorQueue := rs }.after (s.ctl.cursorMoved s.cfg)
      [.emit .hold, .emit (.doneData (s.cfg.idByte s.ctl.stringCursor))]) := by
  obtain ⟨-, hhc, hhl⟩ := s.cfg.ports_ne hcfg
  rw [step_dispatch hcfg hreset (popEvent_read hwrite hread), decode, decodeIor_dataHi _ hhc.symm hhl.symm,
    ← exec_iorDataHi_string (s := { s with iorQueue := rs }) hsel, exec_rdhiString]

theorem lt_terminated_length {cfg : Config} {n : Nat} (h : n ≤ cfg.idString.length) : n < (cfg.idString ++ [0x00]).length := by
  rw [List.length_append, List.length_singleton]
  exact Nat.lt_succ_of_le h

/-- Streaming from a byte on is reading that byte and streaming from the next one on. -/
theorem readResponses_drop (cfg : Config) {n : Nat} (h : n ≤ cfg.idString.length) :
    readResponses ((cfg.idString ++ [0x00]).drop n) =
      [.emit .hold, .emit (.doneData (cfg.idByte n))] ++ readResponses ((cfg.idString ++ [0x00]).drop (n + 1)) := by
  rw [List.drop_eq_getElem_cons (lt_terminated_length h), ← idByte_eq_getElem cfg (lt_terminated_length h)]
  rfl

/-- The read of the terminator ends the string. -/
theorem streamed_of_end {s : State} (h : s.ctl.stringCursor = s.cfg.idString.length) :
    { s with iorQueue := [] }.after (s.ctl.cursorMoved s.cfg)
      [.emit .hold, .emit (.doneData (s.cfg.idByte s.ctl.stringCursor))] = s.streamed s.ctl.stringCursor := by
  have hnone : (s.cfg.idString ++ [0x00]).drop (s.cfg.idString.length + 1) = [] := by
    rw [List.drop_eq_nil_iff, List.length_append, List.length_singleton]
  rw [cursorMoved_of_end h, State.streamed, readResponses_drop s.cfg h.le, h, hnone]
  rfl

/-- The read of an earlier byte leaves the rest to be streamed. -/
theorem streamed_of_lt {s : State} (rs : List Port) (h : s.ctl.stringCursor < s.cfg.idString.length) :
    ({ s with iorQueue := rs }.after { s.ctl with stringCursor := s.ctl.stringCursor + 1 }
      [.emit .hold, .emit (.doneData (s.cfg.idByte s.ctl.stringCursor))]).streamed (s.ctl.stringCursor + 1) =
      s.streamed s.ctl.stringCursor := by
  rw [State.streamed, State.streamed, readResponses_drop s.cfg h.le, ← List.append_assoc]
  rfl

/-- From a byte `k` places before the terminator, `k + 1` reads stream the rest of the string. -/
theorem run_readString (k : Nat) {s : State} (hcfg : s.cfg.wf = true) (hreset : s.resetPending = false)
    (hsel : s.ctl.selectedRegister = regString) (hwrite : s.iowQueue = [])
    (hread : s.iorQueue = List.replicate (k + 1) s.cfg.dataHighPort)
    (hcursor : s.ctl.stringCursor + k = s.cfg.idString.length) :
    Host.Core.run Sys2Proof.core (k + 1) s = .next (s.streamed s.ctl.stringCursor) := by
  induction k generalizing s with
  | zero =>
    have hstep := step_readString hcfg hreset hsel hwrite hread
    exact (run_succ_of_step (M := Sys2Proof.core) 0 hstep).trans (congrArg Host.Outcome.next (streamed_of_end hcursor))
  | succ k ih =>
    have hlt : s.ctl.stringCursor < s.cfg.idString.length := by omega
    have hstep := step_readString hcfg hreset hsel hwrite hread
    rw [cursorMoved_of_lt hlt] at hstep
    refine (run_succ_of_step (M := Sys2Proof.core) (k + 1) hstep).trans ?_
    rw [← streamed_of_lt (List.replicate (k + 1) s.cfg.dataHighPort) hlt]
    exact ih hcfg hreset hsel hwrite rfl ((Nat.succ_add_eq_add_succ _ k).trans hcursor)

/-- Settles O52: the string is streamed from its first byte. -/
theorem stringStreamsInOrder : Obligations.StringStreamsInOrder := by
  intro s hcfg hreset hsel hcursor hwrite hread
  have hrun := run_readString s.cfg.idString.length hcfg hreset hsel hwrite hread (by rw [hcursor, Nat.zero_add])
  refine hrun.trans ?_
  rw [State.streamed, hcursor, List.drop_zero, ← hcursor]
  rfl

end Sys2Proof.Machine
end
